-- ==== Sys2Proof/Word.lean ====
section
/-! DEFINITION. The words of the block: the byte of every queue, buffer and frame, the 56-bit reading of a
frame, and the sensor's raw reading (spec/00_scope.md R8). -/

namespace Sys2Proof

/-- A byte, an unsigned value 0 to 255 (R8). -/
abbrev Byte := BitVec 8

/-- A frame read as one word `W`, byte offset 0 most significant (R8, D21). -/
abbrev FrameWord := BitVec 56

/-- One raw reading of the attitude sensor, an `int16` read as signed (R8, R112). -/
abbrev Raw16 := BitVec 16

end Sys2Proof
end

