-- ==== Sys2Proof/Config.lean ====
section
/-! DEFINITION. What is fixed for one machine: the wired constants of spec/00_scope.md R7 and
spec/10_state.md R17, the open parameters as uninterpreted constants, and the free values the
environment supplies where State lists no answer of its own (notes/assumptions 2 to 10). -/

namespace Sys2Proof

/-- The five actuator endpoints, in the order in which APPLY writes them (R33, R101). -/
inductive Endpoint where
  | dir1
  | dir2
  | relay
  | duty1
  | duty2
deriving DecidableEq, Repr, Inhabited

/-- The result of one actuator write (R33, R103). -/
inductive WriteResult where
  | ok
  | fail
deriving DecidableEq, Repr, Inhabited

/-- The result of one sensor transaction: three signed raw readings, or `Err` (R110). -/
inductive SensorResult where
  | ok (rx ry rz : Raw16)
  | err
deriving DecidableEq, Repr, Inhabited

namespace Config

/-- Bytes in a ControlFrame (R7). -/
def FRAME_LEN : Nat := 7

/-- "Minimum bytes polled before an attempt is made" (R7). -/
def MIN_POLL : Nat := 7

/-- Header marker, ASCII `&` (R7). -/
def HDR : Byte := 0x26#8

/-- Footer marker, ASCII `@` (R7). -/
def FTR : Byte := 0x40#8

/-- Whether `a` to `f` are hexadecimal digits (R7, D8). -/
def HEX_LOWER : Bool := true

/-- The value of a duty field one of whose bytes is no hexadecimal digit (R7, D9). -/
def NONHEX_DUTY : Byte := 0#8

/-- The raw triple that stands in for a failed sensor read (R7, D13). -/
def SENSOR_ERR_SAMPLE : Raw16 × Raw16 × Raw16 := (0#16, 0#16, 0#16)

/-- By how much the open `BUF_CAP` exceeds its least value 7 (R7, D4; notes/assumptions/6.md). -/
opaque bufCapExcess : Nat

/-- Capacity of the Receiver's buffer: any natural number at least 7 (R7, D4). -/
def BUF_CAP : Nat := bufCapExcess + 7

/-- The open cadence less one unit, so that `CADENCE` is positive (D5; notes/assumptions/7.md). -/
opaque cadenceExcess : Nat

/-- The delay at the end of each cycle, in a unit the spec does not give; no rule reads it (R7, R123, D5). -/
def CADENCE : Nat := cadenceExcess + 1

/-- The open diagnostic cadence less one unit (D5; notes/assumptions/7.md). -/
opaque diagCadenceExcess : Nat

/-- The delay in a diagnostic configuration; no rule reads it (R7, R152, D23). -/
def DIAG_CADENCE : Nat := diagCadenceExcess + 1

/-- Which pin carries an endpoint and which electrical level stands for `true`; no rule reads it
(R7, D26; notes/assumptions/8.md). -/
opaque PIN_MAP : Endpoint → Nat × Bool

/-- Depth of the channel's input queue, the environment's business; no rule reads it
(R7, D25; notes/assumptions/8.md). -/
opaque RXQ_DEPTH : Option Nat

/-- FREE VALUE: what the environment left in the channel's queue at reset (R20, V2; notes/assumptions/4.md). -/
opaque rxqAtReset : List Byte

/-- FREE VALUE: the byte each offset of the frame buffer holds at reset (R20, V3; notes/assumptions/5.md). -/
opaque bufAtReset : Nat → Byte

/-- FREE VALUE: whether the hardware initialisation fails, where State lists no outcome
(R124, U13; notes/assumptions/3.md). -/
opaque initFails : Nat → Bool

/-- FREE VALUE: the `n`-th sensor result not listed in State (R110, U10; notes/assumptions/3.md). -/
opaque sensorDraw : Nat → SensorResult

/-- FREE VALUE: the `n`-th write result not listed in State (R103, U12; notes/assumptions/3.md). -/
opaque writeDraw : Nat → WriteResult

/-- FREE VALUE: the failure status less one, so that the status is not 0 (U17; notes/assumptions/10.md). -/
opaque initExitExcess : Nat

/-- The exit status after a failed initialisation, any value other than 0 (R124, U17). -/
def INIT_EXIT_STATUS : Nat := initExitExcess + 1

end Config
end Sys2Proof
end

