-- ==== Sys2Proof/Syntax.lean ====
section
/-! DEFINITION. The block's instruction set: the 7-byte command frame in its three classes
(spec/30_encoding.md R50, R57; spec/opcode_table.json). -/

namespace Sys2Proof

/-- The three classes a frame can fall into (R57). -/
inductive FrameClass where
  | cmd
  | cmdx
  | badframe
deriving DecidableEq, Repr

/-- One frame as the parser sees it. `h2 l2` are the character bytes at offsets 2 and 3 (duty of channel 2,
high digit first), `h1 l1` those at offsets 4 and 5 (duty of channel 1) (R51). -/
inductive Instr where
  /-- `CMD`: the envelope holds and byte 1 is `0`..`7` (R57, R84). -/
  | cmd (relay pwm2_dir pwm1_dir : Bool) (h2 l2 h1 l1 : Byte)
  /-- `CMDX`: the envelope holds and byte 1, `d`, is not `0`..`7` (R57, R85). -/
  | cmdx (d h2 l2 h1 l1 : Byte)
  /-- `BADFRAME`: the header or the footer is wrong (R57, R82). -/
  | badframe (b0 b1 b2 b3 b4 b5 b6 : Byte)
deriving DecidableEq, Repr

/-- The class of an instruction (R57). -/
def Instr.frameClass : Instr → FrameClass
  | .cmd _ _ _ _ _ _ _ => .cmd
  | .cmdx _ _ _ _ _ => .cmdx
  | .badframe _ _ _ _ _ _ _ => .badframe

/-- Why the decoder rejects a byte list. -/
inductive DecodeError where
  /-- Fewer than `FRAME_LEN` bytes (R50: one fixed length). -/
  | shortFrame
deriving DecidableEq, Repr

/-- The answer of the decoder: an instruction and the bytes after it, or a named rejection. -/
inductive Decoded where
  | ok (i : Instr) (rest : List Byte)
  | rejected (e : DecodeError)
deriving DecidableEq, Repr

end Sys2Proof
end

