-- ==== Sys2Proof/Machine/State.lean ====
section
/-! DEFINITION. The whole state of the machine (spec/10_state.md R10 to R20, spec/20_memory.md R30), the reasons
a step can stop, and the state after reset. -/

namespace Sys2Proof.Machine

/-- The phase register, the block's program counter (R14). -/
inductive Phase where
  | init
  | poll
  | parse
  | sample
  | apply
  | sleep
  | halt
deriving DecidableEq, Repr

/-- ActuatorState: "the single mutable record holding the last validated command" (R10). It is also the type
of a DecodedCommand (00_scope.md, glossary). -/
structure ActuatorState where
  pwm1 : Byte
  pwm2 : Byte
  pwm1_dir : Bool
  pwm2_dir : Bool
  relay : Bool
deriving DecidableEq, Repr

/-- The all-off value, which "doubles as the fail-safe target" (R11). -/
def ALL_OFF : ActuatorState :=
  { pwm1 := 0#8, pwm2 := 0#8, pwm1_dir := false, pwm2_dir := false, relay := false }

/-- The telemetry registers (R15). An angle is held as the integer `45·raw`, in units of 1/128 degree
(R113, D14; notes/assumptions/9.md). -/
structure Telemetry where
  xa : Int
  ya : Int
  za : Int
  err : Bool
deriving DecidableEq, Repr

/-- The value of `ST.frame` (R16). -/
inductive FrameTag where
  | none
  | cmd
  | cmdx
  | badframe
deriving DecidableEq, Repr

/-- `ST.wfail[1..5]`, each bit under the endpoint of its write (R16, R101). -/
structure WriteFlags where
  dir1 : Bool
  dir2 : Bool
  relay : Bool
  duty1 : Bool
  duty2 : Bool
deriving DecidableEq, Repr

/-- The per-cycle status record (R16). -/
structure Status where
  frame : FrameTag
  digit_unrec : Bool
  clamp1 : Bool
  clamp2 : Bool
  sensor_err : Bool
  wfail : WriteFlags
deriving DecidableEq, Repr

/-- No write rejected. -/
def WriteFlags.clear : WriteFlags :=
  { dir1 := false, dir2 := false, relay := false, duty1 := false, duty2 := false }

/-- "every field is cleared to `NONE`/`false`" (R16). -/
def Status.cleared : Status :=
  { frame := .none, digit_unrec := false, clamp1 := false, clamp2 := false,
    sensor_err := false, wfail := .clear }

/-- The value each endpoint presents; `none` is the spec's *undriven* (R18). -/
structure Endpoints where
  dir1 : Option Bool
  dir2 : Option Bool
  relay : Option Bool
  duty1 : Option Byte
  duty2 : Option Byte
deriving DecidableEq, Repr

/-- Every endpoint undriven (R18, R20). -/
def Endpoints.undriven : Endpoints :=
  { dir1 := none, dir2 := none, relay := none, duty1 := none, duty2 := none }

/-- A value on its way to an endpoint: a bool, or a duty 0 to 255 (R33). -/
inductive OutValue where
  | level (v : Bool)
  | duty (v : Byte)
deriving DecidableEq, Repr

/-- One event `W(endpoint, value, result)` of the output trace (R100). -/
structure WriteEvent where
  endpoint : Endpoint
  value : OutValue
  result : WriteResult
deriving DecidableEq, Repr

/-- The frame buffer: the bytes written so far by offset, at strictly rising offsets. An unlisted offset holds
its reset byte, which is any byte (R13, R20, V3; notes/assumptions/5.md). -/
abbrev Memory := List Host.Cell

/-- Which agent moves next (R40 item 4, R125; notes/assumptions/2.md). -/
inductive Turn where
  /-- The block performs the operation its phase selects. -/
  | block
  /-- The sender appends these bytes to the channel's queue (R31). -/
  | sender (bytes : List Byte)
  /-- The supervisor terminates the process between two operations (R125). -/
  | supervisor
  /-- The supervisor terminates the process inside the operation under way, after its first access:
  between `SER.avail` and `SER.read`, or between the flush and the reset of a BADFRAME (R125). -/
  | supervisorInside
deriving DecidableEq, Repr

/-- The model's own record of the environment: the turns to come, the answers the environment will give, and
how many free values have been drawn (notes/assumptions/2.md, notes/assumptions/3.md). -/
structure Env where
  turns : List Turn
  initResults : List Bool
  sensorResults : List SensorResult
  writeResults : List WriteResult
  drawn : Nat
deriving DecidableEq, Repr

/-- The state of the block and of the environment it meets (R10 to R18). -/
structure State where
  AS : ActuatorState
  PHASE : Phase
  BUF : Memory
  BUF_LEN : Nat
  BUF_VALID : Bool
  TLM : Telemetry
  ST : Status
  RXQ : List Byte
  EP : Endpoints
  OUT : List WriteEvent
  WRITE_POS : Endpoint
  EXIT : Option Nat
  ENV : Env
deriving DecidableEq, Repr

/-- Why a step faults. Each arises only in states that no run from reset reaches. -/
inductive Fault where
  /-- Raised by PARSE when `BUF_VALID` is false, against the precondition of R80. Safe: the model stops where
  the spec gives no behaviour (notes/assumptions/11.md). -/
  | parseWithoutBuffer
  /-- Raised by PARSE when the decoder rejects the seven bytes. Safe: it cannot happen (R57). -/
  | frameRejected (e : DecodeError)
deriving DecidableEq, Repr

/-- Why a step refuses. -/
inductive Refusal where
  /-- Raised by `exec` for an instruction without a meaning: no instruction of this model. Safe. -/
  | notModelled (mnemonic : String)
deriving DecidableEq, Repr

/-- The machine right after reset (R20, R161). `RXQ` is the free value of notes/assumptions/4.md; every byte of
`BUF` is the free value of notes/assumptions/5.md, since no offset is listed; `WRITE_POS`,
`EXIT` and `ENV` are the model's own fields (notes/assumptions 1, 2, 3, 10). -/
def State.reset : State :=
  { AS := ALL_OFF
    PHASE := .init
    BUF := []
    BUF_LEN := 0
    BUF_VALID := false
    TLM := { xa := 0, ya := 0, za := 0, err := false }
    ST := .cleared
    RXQ := Config.rxqAtReset
    EP := .undriven
    OUT := []
    WRITE_POS := .dir1
    EXIT := none
    ENV := { turns := [], initResults := [], sensorResults := [], writeResults := [], drawn := 0 } }

end Sys2Proof.Machine
end

