-- ==== Sys2Proof/Machine/Flags.lean ====
section
/-! DEFINITION. The status record `ST`: what sets each flag, and what each error class records
(spec/10_state.md R16, spec/41_parser.md R86, spec/60_exceptions.md R135). -/

namespace Sys2Proof.Machine

/-- A duty field, as E_FIELD names it (R137). -/
inductive DutyField where
  | pwm1
  | pwm2
deriving DecidableEq, Repr

/-- The six error classes (R135, D16). -/
inductive ErrorClass where
  | framing
  | field (f : DutyField)
  | digit
  | sensor
  | write (e : Endpoint)
  | init
deriving DecidableEq, Repr

/-- The code of an error class (R135, D16). -/
def ErrorClass.code : ErrorClass → Nat
  | .framing => 1
  | .field _ => 2
  | .digit => 3
  | .sensor => 4
  | .write _ => 5
  | .init => 6

/-- Whether an error class ends the run (R135, R142). -/
def ErrorClass.fatal : ErrorClass → Bool
  | .init => true
  | .framing | .field _ | .digit | .sensor | .write _ => false

/-- The clamp flag of a raw field value: `v = ERR or v < 0 or v > 255` (R86). -/
def clamped : Option Int → Bool
  | none => true
  | some v => decide (v < 0 ∨ 255 < v)

/-- The flag of one write (R16). -/
def WriteFlags.get (w : WriteFlags) : Endpoint → Bool
  | .dir1 => w.dir1
  | .dir2 => w.dir2
  | .relay => w.relay
  | .duty1 => w.duty1
  | .duty2 => w.duty2

/-- Set or clear the flag of one write (R101). -/
def WriteFlags.set (w : WriteFlags) (e : Endpoint) (v : Bool) : WriteFlags :=
  match e with
  | .dir1 => { w with dir1 := v }
  | .dir2 => { w with dir2 := v }
  | .relay => { w with relay := v }
  | .duty1 => { w with duty1 := v }
  | .duty2 => { w with duty2 := v }

/-- What an error class records in `ST` (R135, column "recorded in"). -/
def Status.record (st : Status) : ErrorClass → Status
  | .framing => { st with frame := .badframe }
  | .field .pwm1 => { st with clamp1 := true }
  | .field .pwm2 => { st with clamp2 := true }
  | .digit => { st with frame := .cmdx, digit_unrec := true }
  | .sensor => { st with sensor_err := true }
  | .write e => { st with wfail := st.wfail.set e true }
  | .init => st

/-- The two labels of a cycle (R126, R127, D20). -/
inductive CycleLabel where
  | idle
  | commanded
deriving DecidableEq, Repr

/-- *Idle* when the cycle's POLL returned no buffer, *Commanded* when it returned one (R127, D20).
Read between the cycle's PARSE, or its POLL where there was none, and its end. -/
def Status.cycleLabel (st : Status) : CycleLabel :=
  match st.frame with
  | .none => .idle
  | .cmd | .cmdx | .badframe => .commanded

end Sys2Proof.Machine
end

