-- ==== Sys2Proof/WellFormed.lean ====
section
/-! DEFINITION. Which terms of `Instr` are frames of the class they name (spec/30_encoding.md R57). -/

namespace Sys2Proof

/-- What is wrong with an ill-formed term. -/
inductive WfError where
  /-- A `cmdx` whose digit byte is one of `0`..`7`: those seven bytes are a `CMD`. -/
  | digitIsRecognised
  /-- A `badframe` whose header and footer both hold: those seven bytes are a `CMD` or a `CMDX`. -/
  | envelopeHolds
deriving DecidableEq, Repr

/-- The check of R57's conditions: `none` when the term is a frame of its class. -/
def Instr.wfError : Instr → Option WfError
  | .cmd _ _ _ _ _ _ _ => none
  | .cmdx d _ _ _ _ => if 0x30#8 ≤ d ∧ d ≤ 0x37#8 then some .digitIsRecognised else none
  | .badframe b0 _ _ _ _ _ b6 =>
    if b0 = Config.HDR ∧ b6 = Config.FTR then some .envelopeHolds else none

/-- A term that is a frame of the class it names. -/
abbrev Instr.WellFormed (i : Instr) : Prop := i.wfError = none

end Sys2Proof
end

