-- ==== Sys2Proof/Decode.lean ====
section
/-! DEFINITION. The decoder and the encoder of frames (spec/30_encoding.md R50, R51, R54, R57, R59), with the
mask and match table of spec/opcode_table.json beside them. -/

namespace Sys2Proof

/-- What R54's table gives for a direction/relay digit. -/
structure Digit where
  recognised : Bool
  relay : Bool
  pwm2_dir : Bool
  pwm1_dir : Bool
deriving DecidableEq, Repr

/-- The direction/relay digit (R54): bits 2, 1, 0 of `b1 - 0x30` for `0`..`7`, the default entry otherwise. -/
def digit (b1 : Byte) : Digit :=
  if 0x30#8 ≤ b1 ∧ b1 ≤ 0x37#8 then
    let d := b1 - 0x30#8
    ⟨true, d.getLsbD 2, d.getLsbD 1, d.getLsbD 0⟩
  else ⟨false, false, false, false⟩

/-- The frame's class and operands, tested in the order of R57: envelope, then digit. -/
def decodeFrame (b0 b1 b2 b3 b4 b5 b6 : Byte) : Instr :=
  if b0 = Config.HDR ∧ b6 = Config.FTR then
    if (digit b1).recognised then
      .cmd (digit b1).relay (digit b1).pwm2_dir (digit b1).pwm1_dir b2 b3 b4 b5
    else .cmdx b1 b2 b3 b4 b5
  else .badframe b0 b1 b2 b3 b4 b5 b6

/-- Decode the frame at the head of a byte list; the bytes after offset 6 are returned undecoded (R50, R60). -/
def decode : List Byte → Decoded
  | b0 :: b1 :: b2 :: b3 :: b4 :: b5 :: b6 :: rest => .ok (decodeFrame b0 b1 b2 b3 b4 b5 b6) rest
  | _ => .rejected .shortFrame

/-- The character of a recognised digit: `0x30 + 4*relay + 2*pwm2_dir + pwm1_dir` (R54, R62). -/
def digitChar (relay pwm2_dir pwm1_dir : Bool) : Byte :=
  BitVec.ofNat 8 (0x30 + 4 * relay.toNat + 2 * pwm2_dir.toNat + pwm1_dir.toNat)

/-- The seven bytes of an instruction, from the wire format of R50 and the patterns of R59. -/
def encode : Instr → List Byte
  | .cmd relay pwm2_dir pwm1_dir h2 l2 h1 l1 =>
    [Config.HDR, digitChar relay pwm2_dir pwm1_dir, h2, l2, h1, l1, Config.FTR]
  | .cmdx d h2 l2 h1 l1 => [Config.HDR, d, h2, l2, h1, l1, Config.FTR]
  | .badframe b0 b1 b2 b3 b4 b5 b6 => [b0, b1, b2, b3, b4, b5, b6]

/-- The bytes of a frame word, offset `k` from bits `55-8k : 48-8k` (R8, R51, D21). -/
def frameBytes (w : FrameWord) : List Byte :=
  [w.extractLsb' 48 8, w.extractLsb' 40 8, w.extractLsb' 32 8, w.extractLsb' 24 8,
   w.extractLsb' 16 8, w.extractLsb' 8 8, w.extractLsb' 0 8]

/-- The frame word of seven bytes, offset 0 most significant (R8, D21). -/
def frameWord (b0 b1 b2 b3 b4 b5 b6 : Byte) : FrameWord :=
  b0.setWidth 56 <<< 48 ||| b1.setWidth 56 <<< 40 ||| b2.setWidth 56 <<< 32 ||| b3.setWidth 56 <<< 24 |||
    b4.setWidth 56 <<< 16 ||| b5.setWidth 56 <<< 8 ||| b6.setWidth 56

/-- A frame word from a number, the bits from `nbits` up taken as 0. -/
def tableWord (nbits w : Nat) : FrameWord :=
  BitVec.ofNat 56 (w % 2 ^ nbits)

/-- The instruction the decoder reads from the bytes of `w`, numbered as spec/opcode_table.json numbers
them: one 56-bit word, offset 0 in bits 55:48 (D21; notes/assumptions/12.md). -/
def decodeTableWord (nbits w : Nat) : Option Instr :=
  match decode (frameBytes (tableWord nbits w)) with
  | .ok i _ => some i
  | .rejected _ => none

/-- One row of spec/opcode_table.json: `W &&& mask = pattern` selects `cls`. -/
structure OpcodeRow where
  cls : FrameClass
  mask : FrameWord
  pattern : FrameWord
deriving DecidableEq, Repr

/-- The rows of R59 in priority order. -/
def opcodeTable : List OpcodeRow :=
  [⟨.cmd, 0xFFF800000000FF#56, 0x26300000000040#56⟩,
   ⟨.cmdx, 0xFF0000000000FF#56, 0x26000000000040#56⟩,
   ⟨.badframe, 0x00000000000000#56, 0x00000000000000#56⟩]

/-- The class of the first row that matches, as R59 has a table decoder do. -/
def classify (w : FrameWord) : Option FrameClass :=
  (opcodeTable.find? (fun r => w &&& r.mask == r.pattern)).map OpcodeRow.cls

end Sys2Proof
end

