-- ==== Sys2Proof/Machine/Operands.lean ====
section
/-! DEFINITION. The operand forms of a frame and of a sample: hexadecimal digits, duty fields, the canonical
encoder, the angle, and which field of `AS` each endpoint carries (spec/30_encoding.md R53, R55, R56, R62, R63;
spec/43_sensor_telemetry.md R112; spec/20_memory.md R33). -/

namespace Sys2Proof.Machine

/-- The value of one hexadecimal digit byte, or `none` for `ERR` (R53; small letters by D8). -/
def hexval (b : Byte) : Option Nat :=
  if 0x30#8 ≤ b ∧ b ≤ 0x39#8 then some (b.toNat - 0x30)
  else if 0x41#8 ≤ b ∧ b ≤ 0x46#8 then some (b.toNat - 0x41 + 10)
  else if Config.HEX_LOWER = true ∧ 0x61#8 ≤ b ∧ b ≤ 0x66#8 then some (b.toNat - 0x61 + 10)
  else none

/-- The value of a two-digit field, high digit first, or `none` for `ERR` (R55, D9). -/
def hex2 (hi lo : Byte) : Option Int :=
  match hexval hi, hexval lo with
  | some a, some b => some (16 * (a : Int) + (b : Int))
  | _, _ => none

/-- A raw field value as a duty: anything outside 0..255, and `ERR`, is 0, "never 255, never v mod 256"
(R56, R88). -/
def clamp0 : Option Int → Byte
  | none => Config.NONHEX_DUTY
  | some v => if 0 ≤ v ∧ v ≤ 255 then BitVec.ofInt 8 v else 0#8

/-- The duty of a field from its two character bytes (R56, R86). -/
def duty (hi lo : Byte) : Byte := clamp0 (hex2 hi lo)

/-- The character of a hexadecimal digit, in capitals (R62). -/
def HEXCH (n : Nat) : Byte :=
  if n ≤ 9 then BitVec.ofNat 8 (0x30 + n) else BitVec.ofNat 8 (0x41 + (n - 10))

/-- The canonical frame of a command (R62). -/
def enc (c : ActuatorState) : List Byte :=
  [Config.HDR, digitChar c.relay c.pwm2_dir c.pwm1_dir,
   HEXCH (c.pwm2.toNat / 16), HEXCH (c.pwm2.toNat % 16),
   HEXCH (c.pwm1.toNat / 16), HEXCH (c.pwm1.toNat % 16), Config.FTR]

/-- The pseudo-frame `STOP` = `&00000@` (R63). -/
def STOP : List Byte := enc ALL_OFF

/-- The pseudo-frame `RELAY_ONLY` = `&40000@` (R63). -/
def RELAY_ONLY : List Byte := enc { ALL_OFF with relay := true }

/-- The angle of a raw reading in units of 1/128 degree: `45·raw`, raw read as signed (R112, R113, D14). -/
def angle (raw : Raw16) : Int := 45 * raw.toInt

/-- The field of `AS` that an endpoint carries (R33, "source field"). -/
def ActuatorState.valueFor (a : ActuatorState) : Endpoint → OutValue
  | .dir1 => .level a.pwm1_dir
  | .dir2 => .level a.pwm2_dir
  | .relay => .level a.relay
  | .duty1 => .duty a.pwm1
  | .duty2 => .duty a.pwm2

end Sys2Proof.Machine
end

