-- ==== Sys2Proof/Machine/Ops.lean ====
section
/-! DEFINITION. The named operations over the spaces of spec/20_memory.md (R30 to R34), the environment's
answers, and taking an error as one shared operation (spec/60_exceptions.md R135, R145). -/

namespace Sys2Proof

/-- The endpoint's place in APPLY's sequence, 0 to 4 (R101). -/
def Endpoint.index : Endpoint → Nat
  | .dir1 => 0
  | .dir2 => 1
  | .relay => 2
  | .duty1 => 3
  | .duty2 => 4

/-- The endpoint written after this one in the same APPLY (R101). -/
def Endpoint.next : Endpoint → Option Endpoint
  | .dir1 => some .dir2
  | .dir2 => some .relay
  | .relay => some .duty1
  | .duty1 => some .duty2
  | .duty2 => none

end Sys2Proof

namespace Sys2Proof.Machine

/-! ### The frame buffer (R13, R32) -/

/-- The byte last written at an offset; `none` where nothing has been written since reset. -/
def Memory.lookup : Memory → Nat → Option Byte
  | [], _ => none
  | (a, b) :: m, k => if k = a then some b else Memory.lookup m k

/-- The byte an offset of the buffer holds: the one last written there, or else the reset byte, which is any
byte (R13, R20, V3; notes/assumptions/5.md). Offsets from `BUF_CAP` up do not exist, and nothing reads them. -/
def Memory.read (m : Memory) (k : Nat) : Byte := (m.lookup k).getD (Config.bufAtReset k)

/-- Write one byte, keeping the offsets strictly rising. -/
def Memory.write : Memory → Nat → Byte → Memory
  | [], k, v => [(k, v)]
  | (a, b) :: m, k, v =>
    if k < a then (k, v) :: (a, b) :: m
    else if k = a then (k, v) :: m
    else (a, b) :: Memory.write m k v

/-- Write bytes at rising offsets from `k`: the one block write of a POLL (R32). -/
def Memory.writeBytes (m : Memory) (k : Nat) : List Byte → Memory
  | [] => m
  | b :: bs => Memory.writeBytes (Memory.write m k b) (k + 1) bs

/-- The canonical form of a memory: strictly rising offsets. -/
abbrev Memory.wf (m : Memory) : Prop := m.Pairwise (fun x y => x.1 < y.1)

/-! ### The serial channel (R31) -/

/-- `SER.avail()`: how many bytes wait in the queue. -/
def serAvail (s : State) : Nat := s.RXQ.length

/-- The bytes `SER.read(n)` returns, oldest first. -/
def serBytes (n : Nat) (s : State) : List Byte := s.RXQ.take n

/-- The queue after `SER.read(n)`. -/
def serRead (n : Nat) (s : State) : State := { s with RXQ := s.RXQ.drop n }

/-- `SER.flush()`: "every byte in it is lost". -/
def serFlush (s : State) : State := { s with RXQ := [] }

/-- The sender's bytes land at the tail of the queue (R31). -/
def serArrive (bytes : List Byte) (s : State) : State := { s with RXQ := s.RXQ ++ bytes }

/-! ### The environment's answers (notes/assumptions/3.md) -/

/-- Take the turn at the head of `ENV.turns`. -/
def State.onTurn (s : State) : State := { s with ENV := { s.ENV with turns := s.ENV.turns.tail } }

/-- Whose turn it is: the listed agent's, or the block's where none is listed (notes/assumptions/2.md). -/
def State.nextTurn (s : State) : Turn := s.ENV.turns.headD .block

/-- The `k`-th write result to come, 0 the next: listed, or else a free value. -/
def State.writeResult (s : State) (k : Nat) : WriteResult :=
  match s.ENV.writeResults[k]? with
  | some r => r
  | none => Config.writeDraw (s.ENV.drawn + (k - s.ENV.writeResults.length))

/-- Consume one write result. -/
def drawWrite (s : State) : State :=
  match s.ENV.writeResults with
  | _ :: rs => { s with ENV := { s.ENV with writeResults := rs } }
  | [] => { s with ENV := { s.ENV with drawn := s.ENV.drawn + 1 } }

/-- The sensor result to come: listed, or else a free value (R110). -/
def State.sensorResult (s : State) : SensorResult :=
  match s.ENV.sensorResults with
  | r :: _ => r
  | [] => Config.sensorDraw s.ENV.drawn

/-- Consume one sensor result. -/
def drawSensor (s : State) : State :=
  match s.ENV.sensorResults with
  | _ :: rs => { s with ENV := { s.ENV with sensorResults := rs } }
  | [] => { s with ENV := { s.ENV with drawn := s.ENV.drawn + 1 } }

/-- The outcome of the initialisation: listed, or else a free value (R124). -/
def State.initOk (s : State) : Bool :=
  match s.ENV.initResults with
  | b :: _ => b
  | [] => !Config.initFails s.ENV.drawn

/-- Consume the outcome of the initialisation. -/
def drawInit (s : State) : State :=
  match s.ENV.initResults with
  | _ :: bs => { s with ENV := { s.ENV with initResults := bs } }
  | [] => { s with ENV := { s.ENV with drawn := s.ENV.drawn + 1 } }

/-! ### ActuatorState (R12, R42, R87) -/

/-- The single update of all five fields. -/
def commit (a : ActuatorState) (s : State) : State := { s with AS := a }

/-! ### Taking an error (R135, R145) -/

/-- Raise an error class: record it and take the recovery that reaches beyond the value in hand.
E_FRAMING flushes, resets `AS` and records, in that order (R145, D27); E_SENSOR substitutes the zero sample
(R114, D13); E_INIT halts with a non-zero status (R141). The recoveries of E_FIELD and E_DIGIT are
substitutions "made in line" by the frame that raises them, and E_WRITE leaves the endpoint (R145). -/
def raiseError (e : ErrorClass) (s : State) : State :=
  match e with
  | .framing =>
    let s := commit ALL_OFF (serFlush s)
    { s with ST := s.ST.record .framing }
  | .sensor =>
    { s with
      TLM := { xa := angle Config.SENSOR_ERR_SAMPLE.1, ya := angle Config.SENSOR_ERR_SAMPLE.2.1,
               za := angle Config.SENSOR_ERR_SAMPLE.2.2, err := true }
      ST := s.ST.record .sensor }
  | .init => { s with PHASE := .halt, EXIT := some Config.INIT_EXIT_STATUS, ST := s.ST.record .init }
  | .field f => { s with ST := s.ST.record (.field f) }
  | .digit => { s with ST := s.ST.record .digit }
  | .write k => { s with ST := s.ST.record (.write k) }

/-! ### The actuator endpoints (R33, R100 to R103) -/

/-- Channel 1 or 2 of `ACT.writeDirection` and `ACT.writeDuty` (R102). -/
inductive Channel where
  | ch1
  | ch2
deriving DecidableEq, Repr

/-- What an endpoint presents; `none` while undriven (R18). -/
def Endpoints.get (ep : Endpoints) : Endpoint → Option OutValue
  | .dir1 => ep.dir1.map .level
  | .dir2 => ep.dir2.map .level
  | .relay => ep.relay.map .level
  | .duty1 => ep.duty1.map .duty
  | .duty2 => ep.duty2.map .duty

/-- An endpoint takes a value (R33). A value of the other kind is written by no operation and changes nothing. -/
def Endpoints.set (ep : Endpoints) : Endpoint → OutValue → Endpoints
  | .dir1, .level v => { ep with dir1 := some v }
  | .dir2, .level v => { ep with dir2 := some v }
  | .relay, .level v => { ep with relay := some v }
  | .duty1, .duty v => { ep with duty1 := some v }
  | .duty2, .duty v => { ep with duty2 := some v }
  | .dir1, .duty _ => ep
  | .dir2, .duty _ => ep
  | .relay, .duty _ => ep
  | .duty1, .level _ => ep
  | .duty2, .level _ => ep

/-- What a write event does to the endpoints: on `ok` the endpoint takes the value, on `fail` it keeps the one
it had (R33, D12). -/
def Endpoints.observe (ep : Endpoints) (w : WriteEvent) : Endpoints :=
  match w.result with
  | .ok => ep.set w.endpoint w.value
  | .fail => ep

/-- One write: the environment's result, its effect on the endpoint, the event, the flag, and the error
(R101, R103). -/
def issueWrite (e : Endpoint) (v : OutValue) (s : State) : State :=
  let res := s.writeResult 0
  let event : WriteEvent := { endpoint := e, value := v, result := res }
  let t := drawWrite s
  let t := { t with EP := t.EP.observe event, OUT := t.OUT ++ [event] }
  let t := { t with ST := { t.ST with wfail := t.ST.wfail.set e (res == .fail) } }
  match res with
  | .ok => t
  | .fail => raiseError (.write e) t

/-- `ACT.writeDirection(ch, v)` (R33, R102). -/
def writeDirection : Channel → Bool → State → State
  | .ch1, v, s => issueWrite .dir1 (.level v) s
  | .ch2, v, s => issueWrite .dir2 (.level v) s

/-- `ACT.writeRelay(v)` (R33, R102). -/
def writeRelay (v : Bool) (s : State) : State := issueWrite .relay (.level v) s

/-- `ACT.writeDuty(ch, v)` (R33, R102). -/
def writeDuty : Channel → Byte → State → State
  | .ch1, v, s => issueWrite .duty1 (.duty v) s
  | .ch2, v, s => issueWrite .duty2 (.duty v) s

end Sys2Proof.Machine
end

