-- ==== Sys2Proof/Machine/Frames.lean ====
section
/-! DEFINITION. The meanings of the three frame classes (spec/41_parser.md R82 to R87). -/

namespace Sys2Proof.Machine

/-- The duty fields' flags and errors, common to CMD and CMDX: each field on its own, `v2` first (R86). -/
def flagDuties (v2 v1 : Option Int) (s : State) : State :=
  let s := { s with ST := { s.ST with clamp2 := clamped v2, clamp1 := clamped v1 } }
  let s := if clamped v2 then raiseError (.field .pwm2) s else s
  if clamped v1 then raiseError (.field .pwm1) s else s

/-- CMD: all five fields from the frame, no flush (R84). -/
def execCmd (relay pwm2_dir pwm1_dir : Bool) (h2 l2 h1 l1 : Byte) (s : State) :
    Host.Outcome State Fault Refusal :=
  let s := commit { pwm1 := duty h1 l1, pwm2 := duty h2 l2, pwm1_dir := pwm1_dir,
                    pwm2_dir := pwm2_dir, relay := relay } s
  let s := { s with ST := { s.ST with frame := .cmd } }
  .next (flagDuties (hex2 h2 l2) (hex2 h1 l1) s)

/-- CMDX: the three bools false, the duties from the frame, E_DIGIT recorded, no flush (R85). -/
def execCmdx (h2 l2 h1 l1 : Byte) (s : State) : Host.Outcome State Fault Refusal :=
  let s := commit { pwm1 := duty h1 l1, pwm2 := duty h2 l2, pwm1_dir := false,
                    pwm2_dir := false, relay := false } s
  let s := raiseError .digit s
  .next (flagDuties (hex2 h2 l2) (hex2 h1 l1) s)

/-- BADFRAME: the fail-safe path; the seven bytes are ignored (R82). -/
def execBadframe (s : State) : Host.Outcome State Fault Refusal :=
  .next (raiseError .framing s)

end Sys2Proof.Machine
end

