-- ==== Sys2Proof/Machine/Dispatch.lean ====
section
/-! DEFINITION. One arm per constructor of Instr (spec/opcode_table.json). -/

namespace Sys2Proof.Machine

def exec (i : Instr) (s : State) : Host.Outcome State Fault Refusal :=
  match i with
  | .cmd relay dir2 dir1 h2 l2 h1 l1 => Sys2Proof.Machine.execCmd relay dir2 dir1 h2 l2 h1 l1 s
  | .cmdx _ h2 l2 h1 l1 => Sys2Proof.Machine.execCmdx h2 l2 h1 l1 s
  | .badframe _ _ _ _ _ _ _ => Sys2Proof.Machine.execBadframe s

end Sys2Proof.Machine
end

