-- ==== Sys2Proof/Machine/Parser.lean ====
section
/-! DEFINITION. The Frame Parser's operation PARSE around the meaning of a frame: reading the frame out of the
buffer, and the two lines with which every PARSE ends (spec/41_parser.md R80, R89). -/

namespace Sys2Proof.Machine

/-- `BUF[0]` to `BUF[6]`, and no other byte of `BUF` (R32, R80). -/
def fetchFrame (m : Memory) : List Byte :=
  [m.read 0, m.read 1, m.read 2, m.read 3, m.read 4, m.read 5, m.read 6]

/-- PARSE's last two lines: the frame is not retained, and the cycle goes on to SAMPLE (R80, R121). -/
def endParse (s : State) : State := { s with BUF_VALID := false, PHASE := .sample }

/-- PARSE (R80): the instruction in `BUF[0..6]` has its effect, then the two closing lines. -/
def parse (s : State) : Host.Outcome State Fault Refusal :=
  if s.BUF_VALID then
    match decode (fetchFrame s.BUF) with
    | .rejected e => .fault (.frameRejected e)
    | .ok i _ =>
      match exec i s with
      | .next t => .next (endParse t)
      | .fault r => .fault r
      | .refused r => .refused r
  else .fault .parseWithoutBuffer

/-- Put seven bytes where PARSE reads its frame, as a POLL that returned just them would, and let the block
move next (notes/assumptions/13.md). -/
def placeFrame (bytes : List Byte) (s : State) : State :=
  { s with
    BUF := Memory.writeBytes s.BUF 0 bytes
    BUF_LEN := Config.FRAME_LEN
    BUF_VALID := true
    PHASE := .parse
    ENV := { s.ENV with turns := .block :: s.ENV.turns } }

end Sys2Proof.Machine
end

