-- ==== Sys2Proof/Machine/Environment.lean ====
section
/-! DEFINITION. What the supervisor does to the block (spec/44_control_loop.md R125). What the sender does is
`serArrive` (spec/20_memory.md R31). -/

namespace Sys2Proof.Machine

/-- Termination between two operations: the block issues nothing more, "does not write `ALL_OFF` to the
endpoints, does not open the relay and does not flush the channel" (R125, D18). -/
def terminate (s : State) : State := { s with PHASE := .halt }

/-- Whether the frame in the buffer takes the fail-safe path (R82). -/
def holdsBadframe (s : State) : Bool :=
  match decode (fetchFrame s.BUF) with
  | .ok (.badframe _ _ _ _ _ _ _) _ => s.BUF_VALID
  | .ok (.cmd _ _ _ _ _ _ _) _ => false
  | .ok (.cmdx _ _ _ _ _) _ => false
  | .rejected _ => false

/-- Termination inside the operation under way, after its first access: a POLL has cleared `ST` and counted
the queue, a PARSE of a BADFRAME has flushed it and not yet reset `AS` (R125). The other operations make one
access, so there it is termination before the operation. -/
def terminateInside (s : State) : State :=
  match s.PHASE with
  | .poll => terminate { s with ST := .cleared }
  | .parse => if holdsBadframe s then terminate (serFlush s) else terminate s
  | .init => terminate s
  | .sample => terminate s
  | .apply => terminate s
  | .sleep => terminate s
  | .halt => terminate s

end Sys2Proof.Machine
end

