-- ==== Sys2Proof/Machine/Driver.lean ====
section
/-! DEFINITION. The Actuator Driver's operation APPLY, one write a step (spec/42_driver.md R101 to R105;
notes/assumptions/1.md). -/

namespace Sys2Proof.Machine

/-- The write at the present place of APPLY's sequence, its value from `AS` (R101). -/
def issueFromAS (s : State) : State :=
  match s.WRITE_POS with
  | .dir1 => writeDirection .ch1 s.AS.pwm1_dir s
  | .dir2 => writeDirection .ch2 s.AS.pwm2_dir s
  | .relay => writeRelay s.AS.relay s
  | .duty1 => writeDuty .ch1 s.AS.pwm1 s
  | .duty2 => writeDuty .ch2 s.AS.pwm2 s

/-- One write of APPLY (R101): attempted once, whatever the earlier results (R103, D11), then the next
place of the sequence, or SLEEP after the fifth. -/
def applyWrite (s : State) : State :=
  let t := issueFromAS s
  match s.WRITE_POS.next with
  | some e => { t with WRITE_POS := e }
  | none => { t with WRITE_POS := .dir1, PHASE := .sleep }

end Sys2Proof.Machine
end

