-- ==== Sys2Proof/Machine/Receiver.lean ====
section
/-! DEFINITION. The Frame Receiver's operation POLL (spec/40_receiver.md R70 to R75). -/

namespace Sys2Proof.Machine

/-- POLL with a buffer of `cap` bytes (R71). Exactly `min(a, cap)` of the oldest bytes are taken, `a` the count
just sampled (R43, D6). Bytes of `BUF` at and above that count stay (R73). -/
def pollWith (cap : Nat) (s : State) : State :=
  let s := { s with ST := .cleared }
  let a := serAvail s
  if Config.MIN_POLL ≤ a then
    let n := min a cap
    let bytes := serBytes n s
    let s := serRead n s
    { s with BUF := Memory.writeBytes s.BUF 0 bytes, BUF_LEN := n, BUF_VALID := true, PHASE := .parse }
  else
    { s with BUF_VALID := false, ST := { s.ST with frame := .none }, PHASE := .sample }

/-- POLL (R71). -/
def poll (s : State) : State := pollWith Config.BUF_CAP s

end Sys2Proof.Machine
end

