-- ==== Sys2Proof/Machine/Sensor.lean ====
section
/-! DEFINITION. The sensor adapter's operation SAMPLE (spec/43_sensor_telemetry.md R111 to R114). -/

namespace Sys2Proof.Machine

/-- SAMPLE (R111): three angles on `Ok`, the zero sample with its mark on `Err` (R114). It ends at the first
write of the cycle's APPLY (notes/assumptions/1.md). -/
def sample (s : State) : State :=
  let t := drawSensor s
  let t :=
    match s.sensorResult with
    | .ok rx ry rz => { t with TLM := { xa := angle rx, ya := angle ry, za := angle rz, err := false } }
    | .err => raiseError .sensor t
  { t with ST := { t.ST with sensor_err := t.TLM.err }, PHASE := .apply, WRITE_POS := .dir1 }

end Sys2Proof.Machine
end

