-- ==== Sys2Proof/Machine/Loop.lean ====
section
/-! DEFINITION. The Control Loop: INIT, SLEEP, HALT, and the operation each phase selects
(spec/44_control_loop.md R120 to R125). -/

namespace Sys2Proof.Machine

/-- INIT (R124): the loop on success, E_INIT on failure. -/
def initialise (s : State) : State :=
  let t := drawInit s
  if s.initOk then { t with PHASE := .poll } else raiseError .init t

/-- SLEEP (R123): one step that changes only `PHASE`; the model carries no time (notes/assumptions/7.md). -/
def sleep (s : State) : State := { s with PHASE := .poll }

/-- The operation the phase selects (R14). In `P_HALT` the block issues none (R125). -/
def blockStep (s : State) : Host.Outcome State Fault Refusal :=
  match s.PHASE with
  | .init => .next (initialise s)
  | .poll => .next (poll s)
  | .parse => parse s
  | .sample => .next (sample s)
  | .apply => .next (applyWrite s)
  | .sleep => .next (sleep s)
  | .halt => .next s

end Sys2Proof.Machine
end

