-- ==== Sys2Proof/Machine/Step.lean ====
section
/-! DEFINITION. One step of the machine: the move of the agent whose turn it is (spec/20_memory.md R40 item 4,
spec/44_control_loop.md R121). -/

namespace Sys2Proof.Machine

/-- One step. -/
def step (s : State) : Host.Outcome State Fault Refusal :=
  match s.nextTurn with
  | .block => blockStep s.onTurn
  | .sender bytes => .next (serArrive bytes s.onTurn)
  | .supervisor => .next (terminate s.onTurn)
  | .supervisorInside => .next (terminateInside s.onTurn)

/-- `s` with the frame `w` where the next step reads its instruction (notes/assumptions/13.md). -/
def State.withFetchWord (s : State) (nbits w : Nat) : State :=
  placeFrame (frameBytes (tableWord nbits w)) s

end Sys2Proof.Machine
end

