-- ==== Sys2Proof/Safety.lean ====
section
/-! DEFINITION. Runs of the machine, and the properties of states in whose terms claims are stated
(spec/10_state.md R13, R16, R18; spec/42_driver.md R101 to R105; spec/44_control_loop.md R124). -/

namespace Sys2Proof.Machine

/-- `n` steps, stopping at the first fault or refusal. -/
def steps : Nat → State → Host.Outcome State Fault Refusal
  | 0, s => .next s
  | n + 1, s =>
    match step s with
    | .next t => steps n t
    | .fault r => .fault r
    | .refused r => .refused r

/-- The agent of the `k`-th turn to come, 0 the next: the listed one, or the block. -/
def State.turnAt (s : State) (k : Nat) : Turn := (s.ENV.turns[k]?).getD .block

/-- The bytes a turn appends to the queue. -/
def Turn.bytes : Turn → List Byte
  | .sender bytes => bytes
  | .block | .supervisor | .supervisorInside => []

/-- Whether a turn is the sender's. -/
def Turn.isSender : Turn → Bool
  | .sender _ => true
  | .block | .supervisor | .supervisorInside => false

/-- The bytes that arrive in the turns from `i` up to, not including, `j`. -/
def State.arrived (s : State) (i j : Nat) : List Byte := ((s.ENV.turns.take j).drop i).flatMap Turn.bytes

/-- How many of the next `n` turns are not the sender's. -/
def State.blockMoves (s : State) (n : Nat) : Nat := n - (s.ENV.turns.take n).countP Turn.isSender

/-- Turn `i` is the block's move number `m`, counted from 0. -/
def State.BlockMove (s : State) (m i : Nat) : Prop := s.turnAt i = .block ∧ s.blockMoves i = m

/-- No termination is to come: every listed turn is the block's or the sender's. -/
def State.Undisturbed (s : State) : Prop := ∀ u ∈ s.ENV.turns, u = .block ∨ ∃ bytes, u = .sender bytes

/-- Every endpoint driven to off: what `ALL_OFF` puts on the outputs (R130). -/
def Endpoints.allOff : Endpoints :=
  { dir1 := some false, dir2 := some false, relay := some false, duty1 := some 0#8, duty2 := some 0#8 }

/-- The order of the five writes of an APPLY (R101). -/
def writeOrder : List Endpoint := [.dir1, .dir2, .relay, .duty1, .duty2]

/-- The seven bytes at the head of the buffer (R13, R51). -/
def FrameIs (m : Memory) (b0 b1 b2 b3 b4 b5 b6 : Byte) : Prop :=
  m.read 0 = b0 ∧ m.read 1 = b1 ∧ m.read 2 = b2 ∧ m.read 3 = b3 ∧ m.read 4 = b4 ∧ m.read 5 = b5 ∧
  m.read 6 = b6

/-- The buffer and the sequencer fit together: the buffer is canonical and inside `BUF_CAP`, its first
`BUF_LEN` bytes are written, a returned buffer holds a frame, and it is there exactly for the PARSE of its
cycle (R13, R73). -/
structure BufferReady (s : State) : Prop where
  canonical : Memory.wf s.BUF
  inside : ∀ c ∈ s.BUF, c.1 < Config.BUF_CAP
  lenInside : s.BUF_LEN ≤ Config.BUF_CAP
  written : ∀ k, k < s.BUF_LEN → ∃ b, Memory.lookup s.BUF k = some b
  validLen : s.BUF_VALID = true → Config.MIN_POLL ≤ s.BUF_LEN
  parseHasBuffer : s.PHASE = .parse → s.BUF_VALID = true
  validOnlyForParse : s.BUF_VALID = true → s.PHASE = .parse ∨ s.PHASE = .halt

/-- The output trace keeps the write-order contract: the endpoints come round in the order DIR1, DIR2, RELAY,
DUTY1, DUTY2, and the sequencer stands at the next one (R101, R170). -/
structure TraceOrdered (s : State) : Prop where
  inOrder : ∀ k w, s.OUT[k]? = some w → w.endpoint.index = k % 5
  place : s.OUT.length % 5 = s.WRITE_POS.index
  atRest : s.PHASE ≠ .apply → s.PHASE ≠ .halt → s.WRITE_POS = .dir1

/-- Each endpoint presents the last value accepted for it, and is undriven where none was (R18, R33, R103). -/
def EndpointsFollowTrace (s : State) : Prop :=
  s.EP = s.OUT.foldl Endpoints.observe Endpoints.undriven

/-- What the status record says of the cycle (R16). -/
structure StatusConsistent (s : State) : Prop where
  digit : s.ST.digit_unrec = true ↔ s.ST.frame = .cmdx
  clamps : s.ST.clamp1 = true ∨ s.ST.clamp2 = true → s.ST.frame = .cmd ∨ s.ST.frame = .cmdx
  clearBeforeParse : s.PHASE = .parse → s.ST = .cleared
  sensor : s.PHASE = .apply ∨ s.PHASE = .sleep → s.ST.sensor_err = s.TLM.err

/-- Before the loop starts, and after an initialisation that failed, nothing has been read and nothing has been
written (R124, R164); a failed start ends in `P_HALT` with a status that is not 0 (R141). -/
structure StartUp (s : State) : Prop where
  untouched : s.PHASE = .init ∨ s.EXIT ≠ none →
    s.AS = ALL_OFF ∧ s.OUT = [] ∧ s.EP = Endpoints.undriven ∧ s.BUF = []
  exited : s.EXIT ≠ none → s.PHASE = .halt ∧ s.EXIT ≠ some 0

end Sys2Proof.Machine
end

