-- ==== Sys2Proof/Certificates/Slice0/Obligations.lean ====
section
/-! DEFINITION. The statements for the provers. -/

open Sys2Proof Sys2Proof.Machine

/-! ### Encoding (spec/30_encoding.md) -/

/-- Decoding the encoding of a well-formed instruction gives it back, every operand at every value, with the
bytes after it (30_encoding.md sections 1 and 4). -/
def Obligations.DecodeOfEncodeIsInstruction : Prop :=
  ∀ (i : Instr) (rest : List Byte), i.WellFormed → decode (encode i ++ rest) = .ok i rest

/-- What decodes is well-formed, and encoding it gives the bytes back (30_encoding.md sections 1 and 4). -/
def Obligations.EncodeOfDecodeIsBytes : Prop :=
  ∀ (bs : List Byte) (i : Instr) (rest : List Byte), decode bs = .ok i rest →
    i.WellFormed ∧ encode i ++ rest = bs

/-- Every seven bytes fall into exactly one class, by the envelope and then the digit
(30_encoding.md section 4; the class names are D22's). -/
def Obligations.FrameClassesPartitionSevenBytes : Prop :=
  ∀ b0 b1 b2 b3 b4 b5 b6 : Byte, ∃ i : Instr, decode [b0, b1, b2, b3, b4, b5, b6] = .ok i [] ∧
    (i.frameClass = .cmd ↔ (b0 = 0x26#8 ∧ b6 = 0x40#8) ∧ (0x30#8 ≤ b1 ∧ b1 ≤ 0x37#8)) ∧
    (i.frameClass = .cmdx ↔ (b0 = 0x26#8 ∧ b6 = 0x40#8) ∧ ¬ (0x30#8 ≤ b1 ∧ b1 ≤ 0x37#8)) ∧
    (i.frameClass = .badframe ↔ b0 ≠ 0x26#8 ∨ b6 ≠ 0x40#8)

/-- The mask and match table, tested in priority order over the 56-bit word, selects the class the decoder
finds, and the word's bytes are the frame's (30_encoding.md section 4; the word is D21's). -/
def Obligations.OpcodeTableSelectsDecodedClass : Prop :=
  ∀ b0 b1 b2 b3 b4 b5 b6 : Byte,
    frameBytes (frameWord b0 b1 b2 b3 b4 b5 b6) = [b0, b1, b2, b3, b4, b5, b6] ∧
    classify (frameWord b0 b1 b2 b3 b4 b5 b6) = some (decodeFrame b0 b1 b2 b3 b4 b5 b6).frameClass

/-- The frames of the source's Scenarios A to D, written as 56-bit words, decode to the instructions they stand
for (95_test_vectors.md Part 1). -/
def Obligations.ScenarioWordsDecode : Prop :=
  decodeTableWord 56 0x26344646303040 = some (.cmd true false false 0x46#8 0x46#8 0x30#8 0x30#8) ∧
  decodeTableWord 56 0x26373930313040 = some (.cmd true true true 0x39#8 0x30#8 0x31#8 0x30#8) ∧
  decodeTableWord 56 0x58585858585858
    = some (.badframe 0x58#8 0x58#8 0x58#8 0x58#8 0x58#8 0x58#8 0x58#8) ∧
  decodeTableWord 56 0x26384646464640 = some (.cmdx 0x38#8 0x46#8 0x46#8 0x46#8 0x46#8)

/-- The direction/relay digit, for all 256 bytes: the eight rows of the table, the default entry for every other
byte, and the bits read from the byte itself for a recognised digit (30_encoding.md section 3; that last clause is
the spec's own inference, and the characters' codes are presumed, G1 of notes/assumptions/15.md). -/
def Obligations.DigitFollowsTable : Prop :=
  digit 0x30#8 = ⟨true, false, false, false⟩ ∧ digit 0x31#8 = ⟨true, false, false, true⟩ ∧
  digit 0x32#8 = ⟨true, false, true, false⟩ ∧ digit 0x33#8 = ⟨true, false, true, true⟩ ∧
  digit 0x34#8 = ⟨true, true, false, false⟩ ∧ digit 0x35#8 = ⟨true, true, false, true⟩ ∧
  digit 0x36#8 = ⟨true, true, true, false⟩ ∧ digit 0x37#8 = ⟨true, true, true, true⟩ ∧
  (∀ b : Byte, 0x30#8 ≤ b ∧ b ≤ 0x37#8 →
    digit b = ⟨true, b.getLsbD 2, b.getLsbD 1, b.getLsbD 0⟩) ∧
  (∀ b : Byte, ¬ (0x30#8 ≤ b ∧ b ≤ 0x37#8) → digit b = ⟨false, false, false, false⟩)

/-- The value of a hexadecimal digit, for all 256 bytes (30_encoding.md section 3; small letters are D8's
choice). -/
def Obligations.HexvalFollowsAlphabet : Prop :=
  (∀ b : Byte, 0x30#8 ≤ b ∧ b ≤ 0x39#8 → hexval b = some (b.toNat - 48)) ∧
  (∀ b : Byte, 0x41#8 ≤ b ∧ b ≤ 0x46#8 → hexval b = some (b.toNat - 55)) ∧
  (∀ b : Byte, 0x61#8 ≤ b ∧ b ≤ 0x66#8 → hexval b = some (b.toNat - 87)) ∧
  (∀ b : Byte, ¬ (0x30#8 ≤ b ∧ b ≤ 0x39#8) → ¬ (0x41#8 ≤ b ∧ b ≤ 0x46#8) →
    ¬ (0x61#8 ≤ b ∧ b ≤ 0x66#8) → hexval b = none)

/-- A raw field value in 0..255 is kept; any other, and `ERR`, gives 0, "never wrap or saturate at 255"
(30_encoding.md section 3; `ERR` by D9). -/
def Obligations.ClampNeverWrapsOrSaturates : Prop :=
  (∀ v : Int, 0 ≤ v ∧ v ≤ 255 → ((clamp0 (some v)).toNat : Int) = v) ∧
  (∀ v : Int, v < 0 ∨ 255 < v → clamp0 (some v) = 0#8) ∧
  clamp0 none = 0#8

/-- A duty field written in hexadecimal digits has its numeric value and is never clamped; a field with another
byte is 0 and is flagged (30_encoding.md section 3, 41_parser.md section 6; the second half is D9's choice). -/
def Obligations.DutyFieldDecodes : Prop :=
  (∀ (hi lo : Byte) (a b : Nat), hexval hi = some a → hexval lo = some b →
    (duty hi lo).toNat = 16 * a + b ∧ clamped (hex2 hi lo) = false) ∧
  (∀ hi lo : Byte, hexval hi = none ∨ hexval lo = none →
    duty hi lo = 0#8 ∧ clamped (hex2 hi lo) = true)

/-! ### The three instructions (spec/41_parser.md) -/

/-- CMD runs in every state: `AS` takes all five fields from the frame, `ST.frame` is CMD, the clamp flags follow
the duty fields, and nothing else changes; the queue is not flushed (41_parser.md sections 4 and 6; the record `ST`
is D15's, a field with a byte that is no digit is 0 by D9, notes/assumptions/15.md). -/
def Obligations.CmdReplacesCommand : Prop :=
  ∀ (relay pwm2_dir pwm1_dir : Bool) (h2 l2 h1 l1 : Byte) (s : State),
    exec (.cmd relay pwm2_dir pwm1_dir h2 l2 h1 l1) s = .next
      { s with
        AS := { pwm1 := clamp0 (hex2 h1 l1), pwm2 := clamp0 (hex2 h2 l2), pwm1_dir := pwm1_dir,
                pwm2_dir := pwm2_dir, relay := relay }
        ST := { s.ST with
                frame := .cmd
                clamp1 := clamped (hex2 h1 l1)
                clamp2 := clamped (hex2 h2 l2) } }

/-- CMDX runs in every state: the three bools are false whatever they were, the duties come from the frame, E_DIGIT
is recorded, and nothing else changes; the queue is not flushed (41_parser.md sections 5 and 6; the record `ST` is
D15's, a field with a byte that is no digit is 0 by D9, notes/assumptions/15.md). -/
def Obligations.CmdxKeepsDutiesOnly : Prop :=
  ∀ (d h2 l2 h1 l1 : Byte) (s : State),
    exec (.cmdx d h2 l2 h1 l1) s = .next
      { s with
        AS := { pwm1 := clamp0 (hex2 h1 l1), pwm2 := clamp0 (hex2 h2 l2), pwm1_dir := false,
                pwm2_dir := false, relay := false }
        ST := { s.ST with
                frame := .cmdx
                digit_unrec := true
                clamp1 := clamped (hex2 h1 l1)
                clamp2 := clamped (hex2 h2 l2) } }

/-- BADFRAME runs in every state: the queue is emptied, `AS` is all-off whatever it was and whatever the seven
bytes are, E_FRAMING is recorded, and nothing else changes (41_parser.md sections 3 and 7; `ST` is D15's). -/
def Obligations.BadframeTakesFailSafePath : Prop :=
  ∀ (b0 b1 b2 b3 b4 b5 b6 : Byte) (s : State),
    exec (.badframe b0 b1 b2 b3 b4 b5 b6) s = .next
      { s with AS := ALL_OFF, RXQ := [], ST := { s.ST with frame := .badframe } }

/-- The frame of the three instructions: what each leaves as it was. No byte of `BUF` changes at any offset, since
no form stores to it (20_memory.md section 3, 41_parser.md sections 1 to 5). -/
def Obligations.InstructionFrame : Prop :=
  ∀ (i : Instr) (s t : State), exec i s = .next t →
    (∀ k, Memory.read t.BUF k = Memory.read s.BUF k) ∧
    t.BUF_LEN = s.BUF_LEN ∧ t.BUF_VALID = s.BUF_VALID ∧ t.PHASE = s.PHASE ∧ t.TLM = s.TLM ∧
    t.EP = s.EP ∧ t.OUT = s.OUT ∧ t.WRITE_POS = s.WRITE_POS ∧ t.EXIT = s.EXIT ∧ t.ENV = s.ENV ∧
    t.ST.sensor_err = s.ST.sensor_err ∧ t.ST.wfail = s.ST.wfail ∧
    (i.frameClass ≠ .cmdx → t.ST.digit_unrec = s.ST.digit_unrec) ∧
    (i.frameClass = .badframe → t.ST.clamp1 = s.ST.clamp1 ∧ t.ST.clamp2 = s.ST.clamp2) ∧
    (i.frameClass ≠ .badframe → t.RXQ = s.RXQ)

/-- Every instruction completes in every state: no error of a frame stops the block (60_exceptions.md section 1). -/
def Obligations.EveryInstructionCompletes : Prop :=
  ∀ (i : Instr) (s : State), ∃ t, exec i s = .next t

/-! ### PARSE -/

/-- The envelope is all-or-nothing: a frame is accepted exactly when its first byte is the header and its seventh the
footer, whatever lies between, and of a frame that is not accepted no field reaches `AS` (41_parser.md R81). -/
def Obligations.EnvelopeDecidesAcceptance : Prop :=
  ∀ b0 b1 b2 b3 b4 b5 b6 : Byte,
    ((decodeFrame b0 b1 b2 b3 b4 b5 b6).frameClass ≠ .badframe ↔ b0 = 0x26#8 ∧ b6 = 0x40#8) ∧
    (¬ (b0 = 0x26#8 ∧ b6 = 0x40#8) → ∀ (c1 c2 c3 c4 c5 : Byte) (s : State), ∃ t u,
      exec (decodeFrame b0 b1 b2 b3 b4 b5 b6) s = .next t ∧
      exec (decodeFrame b0 c1 c2 c3 c4 c5 b6) s = .next u ∧ t.AS = u.AS)

/-- A step in `P_PARSE` runs the decoded instruction: `exec` of it, then PARSE's two closing lines
(41_parser.md section 1). -/
def Obligations.StepRunsDecodedInstruction : Prop :=
  ∀ (s : State) (b0 b1 b2 b3 b4 b5 b6 : Byte) (i : Instr),
    s.nextTurn = .block → s.PHASE = .parse → s.BUF_VALID = true →
    FrameIs s.BUF b0 b1 b2 b3 b4 b5 b6 → decode [b0, b1, b2, b3, b4, b5, b6] = .ok i [] →
    step s =
      match exec i s.onTurn with
      | .next t => .next { t with BUF_VALID := false, PHASE := .sample }
      | .fault r => .fault r
      | .refused r => .refused r

/-- The word placed by `withFetchWord` is what the very next step runs, from any state (the placing is the
model's, notes/assumptions/13.md). -/
def Obligations.FetchWordIsRunNext : Prop :=
  ∀ (s : State) (w : Nat) (i : Instr), decodeTableWord 56 w = some i →
    step (s.withFetchWord 56 w) =
      match exec i (s.withFetchWord 56 w).onTurn with
      | .next t => .next { t with BUF_VALID := false, PHASE := .sample }
      | .fault r => .fault r
      | .refused r => .refused r

/-- PARSE of the canonical frame of any command leaves `AS` equal to that command, class CMD, nothing clamped, the
queue as it was; and for a CMD frame whose duty bytes are all hexadecimal digits, `enc` of the decoded command
has the same field values, and the same duty bytes if they were capitals (30_encoding.md section 6, 41_parser.md
sections 1 and 4; the record `ST` is D15's, small letters as digits are D8's, the encoder and the class names D22's,
notes/assumptions/15.md). -/
def Obligations.CanonicalFrameRoundTrip : Prop :=
  (∀ (c : ActuatorState) (s : State), s.nextTurn = .block → s.PHASE = .parse → s.BUF_VALID = true →
    (∀ k, k < 7 → some (Memory.read s.BUF k) = (enc c)[k]?) →
    step s = .next
      { s.onTurn with
        AS := c
        ST := { s.ST with frame := .cmd, clamp1 := false, clamp2 := false }
        BUF_VALID := false
        PHASE := .sample }) ∧
  (∀ (relay pwm2_dir pwm1_dir : Bool) (h2 l2 h1 l1 : Byte) (s t : State),
    hexval h2 ≠ none → hexval l2 ≠ none → hexval h1 ≠ none → hexval l1 ≠ none →
    exec (.cmd relay pwm2_dir pwm1_dir h2 l2 h1 l1) s = .next t →
    ∃ g2 k2 g1 k1 : Byte,
      enc t.AS = encode (.cmd relay pwm2_dir pwm1_dir g2 k2 g1 k1) ∧
      hex2 g2 k2 = hex2 h2 l2 ∧ hex2 g1 k1 = hex2 h1 l1 ∧
      (h2 ≤ 0x46#8 → g2 = h2) ∧ (l2 ≤ 0x46#8 → k2 = l2) ∧
      (h1 ≤ 0x46#8 → g1 = h1) ∧ (l1 ≤ 0x46#8 → k1 = l1))

/-- What PARSE does depends on the seven bytes at the head of the buffer and not on the old `AS` nor on any other
byte of the buffer (41_parser.md section 1, 20_memory.md section 3; T2 and T3 of 95_test_vectors.md). -/
def Obligations.ParseReadsFrameBytesOnly : Prop :=
  ∀ (s : State) (a : ActuatorState) (m : Memory), s.nextTurn = .block → s.PHASE = .parse →
    (∀ k, k < 7 → Memory.read m k = Memory.read s.BUF k) →
    step { s with AS := a, BUF := m } =
      match step s with
      | .next t => .next { t with BUF := m }
      | .fault r => .fault r
      | .refused r => .refused r

/-- Which errors one frame records: a framing error alone, or any subset of the digit error and the two field
errors, each by its own cause (60_exceptions.md section 3; the record `ST` is D15's, the field errors' cause D9's). -/
def Obligations.ErrorsOfOneFrame : Prop :=
  ∀ (s : State) (b0 b1 b2 b3 b4 b5 b6 : Byte), s.nextTurn = .block → s.PHASE = .parse →
    s.BUF_VALID = true → s.ST = .cleared → FrameIs s.BUF b0 b1 b2 b3 b4 b5 b6 →
    ∃ t, step s = .next t ∧
      (¬ (b0 = 0x26#8 ∧ b6 = 0x40#8) → t.ST = { Status.cleared with frame := .badframe }) ∧
      (b0 = 0x26#8 ∧ b6 = 0x40#8 →
        (t.ST.digit_unrec = true ↔ ¬ (0x30#8 ≤ b1 ∧ b1 ≤ 0x37#8)) ∧
        (t.ST.clamp2 = true ↔ hexval b2 = none ∨ hexval b3 = none) ∧
        (t.ST.clamp1 = true ↔ hexval b4 = none ∨ hexval b5 = none) ∧
        (t.ST.frame = if 0x30#8 ≤ b1 ∧ b1 ≤ 0x37#8 then .cmd else .cmdx) ∧
        t.ST.sensor_err = false ∧ t.ST.wfail = .clear)

/-! ### POLL (spec/40_receiver.md) -/

/-- POLL with at least seven bytes waiting: the oldest `min(a, BUF_CAP)` go to the head of the buffer, oldest
first, bytes of the buffer above them stay, the rest of the queue stays in order (40_receiver.md section 2; the
exact count is D6's choice). -/
def Obligations.PollTakesOldestBytes : Prop :=
  ∀ s : State, s.nextTurn = .block → s.PHASE = .poll → 7 ≤ s.RXQ.length →
    ∃ t, step s = .next t ∧
      t.RXQ = s.RXQ.drop (min s.RXQ.length Config.BUF_CAP) ∧
      (∀ k, k < min s.RXQ.length Config.BUF_CAP → some (Memory.read t.BUF k) = s.RXQ[k]?) ∧
      (∀ k, min s.RXQ.length Config.BUF_CAP ≤ k → Memory.read t.BUF k = Memory.read s.BUF k) ∧
      t.BUF_LEN = min s.RXQ.length Config.BUF_CAP ∧ t.BUF_VALID = true ∧ t.PHASE = .parse ∧
      t.ST = .cleared ∧ t.AS = s.AS ∧ t.TLM = s.TLM ∧ t.EP = s.EP ∧ t.OUT = s.OUT ∧
      t.WRITE_POS = s.WRITE_POS ∧ t.EXIT = s.EXIT ∧ t.ENV = s.onTurn.ENV

/-- POLL with fewer than seven bytes waiting changes nothing but `ST`, `BUF_VALID` and `PHASE`
(40_receiver.md section 2; T9 of 95_test_vectors.md). -/
def Obligations.PollShortKeepsEverything : Prop :=
  ∀ s : State, s.nextTurn = .block → s.PHASE = .poll → s.RXQ.length < 7 →
    step s = .next { s.onTurn with ST := .cleared, BUF_VALID := false, PHASE := .sample }

/-- A law of the serial channel: reading a number of bytes counted before an arrival, of any capacity, and the
arrival commute, so the read takes only bytes that were there and the arrived ones are behind what it leaves
(20_memory.md sections 2 and 12; that just the counted bytes are read is D6's choice, that the queue loses nothing is
notes/assumptions/8.md). -/
def Obligations.CountedReadCommutesWithArrival : Prop :=
  ∀ (s : State) (bytes : List Byte) (cap : Nat),
    serBytes (min (serAvail s) cap) (serArrive bytes s) = serBytes (min (serAvail s) cap) s ∧
    serRead (min (serAvail s) cap) (serArrive bytes s)
      = serArrive bytes (serRead (min (serAvail s) cap) s)

/-- From POLL with a frame at the head of the queue, whatever arrives meanwhile: when the block has moved twice, with
POLL as turn `i` and PARSE as turn `j`, only the first seven bytes that waited decide `AS`. After a bad envelope the
queue holds just what arrived after the flush; after a good one it holds what lay beyond the buffer's capacity when
POLL counted and what arrived since, so a second frame read in the same poll is lost (40_receiver.md sections 2 and 3,
41_parser.md section 1; D6, D7, D9 and D15's choices, the label is D20's, that no byte is lost is
notes/assumptions/8.md). -/
def Obligations.HeadOfQueueDecidesCommand : Prop :=
  ∀ (s : State) (b0 b1 b2 b3 b4 b5 b6 : Byte) (more : List Byte) (i j n : Nat),
    s.Undisturbed → s.PHASE = .poll → s.RXQ = b0 :: b1 :: b2 :: b3 :: b4 :: b5 :: b6 :: more →
    s.BlockMove 0 i → s.BlockMove 1 j → s.blockMoves n = 2 →
    ∃ t, steps n s = .next t ∧ t.PHASE = .sample ∧ t.BUF_VALID = false ∧ t.EP = s.EP ∧ t.OUT = s.OUT ∧
      t.ST.cycleLabel = .commanded ∧
      (b0 ≠ 0x26#8 ∨ b6 ≠ 0x40#8 → t.AS = ALL_OFF ∧ t.RXQ = s.arrived j n) ∧
      (b0 = 0x26#8 ∧ b6 = 0x40#8 →
        t.RXQ = (s.RXQ ++ s.arrived 0 i).drop (min (s.RXQ ++ s.arrived 0 i).length Config.BUF_CAP)
          ++ s.arrived i n ∧
        t.AS.pwm2 = duty b2 b3 ∧ t.AS.pwm1 = duty b4 b5 ∧
        (0x30#8 ≤ b1 ∧ b1 ≤ 0x37#8 →
          t.AS.relay = b1.getLsbD 2 ∧ t.AS.pwm2_dir = b1.getLsbD 1 ∧ t.AS.pwm1_dir = b1.getLsbD 0) ∧
        (¬ (0x30#8 ≤ b1 ∧ b1 ≤ 0x37#8) →
          t.AS.relay = false ∧ t.AS.pwm2_dir = false ∧ t.AS.pwm1_dir = false))

/-! ### SAMPLE (spec/43_sensor_telemetry.md) -/

/-- SAMPLE on three readings stores `(90/256)·raw` degrees for each axis, exactly, raw read as signed, with no
limit but the readings' own range, and clears the mark; the command path is untouched (43_sensor_telemetry.md
sections 2 and 3; that `TLM` holds units of 1/128 degree is notes/assumptions/9.md by D14, the mark is D13's and the
flag in `ST` D15's). -/
def Obligations.SampleStoresAngles : Prop :=
  (∀ (s : State) (rx ry rz : Raw16), s.nextTurn = .block → s.PHASE = .sample →
    s.sensorResult = .ok rx ry rz →
    ∃ t, step s = .next t ∧
      (t.TLM.xa : ℚ) / 128 = 90 / 256 * (rx.toInt : ℚ) ∧
      (t.TLM.ya : ℚ) / 128 = 90 / 256 * (ry.toInt : ℚ) ∧
      (t.TLM.za : ℚ) / 128 = 90 / 256 * (rz.toInt : ℚ) ∧
      t.TLM.err = false ∧ t.ST = { s.ST with sensor_err := false } ∧ t.PHASE = .apply ∧
      t.AS = s.AS ∧ t.RXQ = s.RXQ ∧ t.BUF = s.BUF ∧ t.EP = s.EP ∧ t.OUT = s.OUT) ∧
  (∀ raw : Raw16, -11520 ≤ (angle raw : ℚ) / 128 ∧ (angle raw : ℚ) / 128 ≤ 11519.6484375) ∧
  (angle 0x8000#16 : ℚ) / 128 = -11520 ∧ (angle 0x7FFF#16 : ℚ) / 128 = 11519.6484375

/-- SAMPLE on an error stores the zero sample with its mark and records E_SENSOR; the previous sample is not kept
and the command path is untouched (43_sensor_telemetry.md sections 2 and 4; the zero sample is D13's choice). -/
def Obligations.SampleErrorStoresMarkedZero : Prop :=
  ∀ s : State, s.nextTurn = .block → s.PHASE = .sample → s.sensorResult = .err →
    ∃ t, step s = .next t ∧ t.TLM = { xa := 0, ya := 0, za := 0, err := true } ∧
      t.ST = { s.ST with sensor_err := true } ∧ t.PHASE = .apply ∧
      t.AS = s.AS ∧ t.RXQ = s.RXQ ∧ t.BUF = s.BUF ∧ t.EP = s.EP ∧ t.OUT = s.OUT

/-! ### APPLY (spec/42_driver.md) -/

/-- One write of APPLY: the endpoint of the present place takes the field of `AS` when the write is accepted and
keeps its value when it is rejected, the others keep theirs, one event is appended, the flag follows the result, and
the sequence moves on either way (42_driver.md sections 2 and 3; D11 and D12's choices, one write a step by
notes/assumptions/1.md). -/
def Obligations.OneWriteOfApply : Prop :=
  ∀ s : State, s.nextTurn = .block → s.PHASE = .apply →
    ∃ t, step s = .next t ∧
      (∀ e, t.EP.get e =
        if e = s.WRITE_POS ∧ s.writeResult 0 = .ok then some (s.AS.valueFor e) else s.EP.get e) ∧
      t.OUT = s.OUT ++ [⟨s.WRITE_POS, s.AS.valueFor s.WRITE_POS, s.writeResult 0⟩] ∧
      (∀ e, t.ST.wfail.get e = if e = s.WRITE_POS then s.writeResult 0 == .fail else s.ST.wfail.get e) ∧
      t.ST.frame = s.ST.frame ∧ t.ST.digit_unrec = s.ST.digit_unrec ∧ t.ST.clamp1 = s.ST.clamp1 ∧
      t.ST.clamp2 = s.ST.clamp2 ∧ t.ST.sensor_err = s.ST.sensor_err ∧
      (s.WRITE_POS = .duty2 → t.PHASE = .sleep) ∧
      (s.WRITE_POS ≠ .duty2 → t.PHASE = .apply ∧ s.WRITE_POS.next = some t.WRITE_POS) ∧
      t.AS = s.AS ∧ t.TLM = s.TLM ∧ t.RXQ = s.RXQ ∧ t.BUF = s.BUF ∧ t.BUF_LEN = s.BUF_LEN ∧
      t.BUF_VALID = s.BUF_VALID ∧ t.EXIT = s.EXIT

/-- A whole APPLY, seen after any number `j` of its five writes, whatever their results and whatever arrives between
them: the events are those of the first `j` endpoints of the order DIR1, DIR2, RELAY, DUTY1, DUTY2 with the values of
one and the same `AS`; an endpoint presents its new value exactly when its write has come and was accepted; arrivals
reach the queue alone (42_driver.md sections 2 to 4; D10, D11 and D12's choices, one write a step by
notes/assumptions/1.md, no byte lost by notes/assumptions/8.md). -/
def Obligations.ApplyWritesInOrder : Prop :=
  ∀ (s : State) (n j : Nat), s.Undisturbed → s.PHASE = .apply → s.WRITE_POS = .dir1 →
    s.blockMoves n = j → j ≤ 5 →
    ∃ t, steps n s = .next t ∧ t.AS = s.AS ∧ (t.PHASE = if j = 5 then .sleep else .apply) ∧
      t.OUT = s.OUT ++ (writeOrder.take j).map (fun e => ⟨e, s.AS.valueFor e, s.writeResult e.index⟩) ∧
      (∀ e, t.EP.get e =
        if e.index < j ∧ s.writeResult e.index = .ok then some (s.AS.valueFor e) else s.EP.get e) ∧
      (∀ e, t.ST.wfail.get e =
        if e.index < j then s.writeResult e.index == .fail else s.ST.wfail.get e) ∧
      t.TLM = s.TLM ∧ t.RXQ = s.RXQ ++ s.arrived 0 n ∧ t.BUF = s.BUF

/-- A write that is accepted puts exactly the given value on its own endpoint and touches no other: no scaling, no
inversion, no dead-band, no interlock between endpoints (42_driver.md R102). -/
def Obligations.WritesPassValuesThrough : Prop :=
  ∀ s : State, s.writeResult 0 = .ok →
    (∀ v, (writeDirection .ch1 v s).EP = { s.EP with dir1 := some v }) ∧
    (∀ v, (writeDirection .ch2 v s).EP = { s.EP with dir2 := some v }) ∧
    (∀ v, (writeRelay v s).EP = { s.EP with relay := some v }) ∧
    (∀ v, (writeDuty .ch1 v s).EP = { s.EP with duty1 := some v }) ∧
    (∀ v, (writeDuty .ch2 v s).EP = { s.EP with duty2 := some v })

/-! ### INIT, SLEEP, HALT and the environment (spec/44_control_loop.md) -/

/-- INIT: success enters the loop; failure halts with a status that is not 0, having read and written nothing
(44_control_loop.md section 3; one outcome for all peripherals is D28's choice). -/
def Obligations.InitEntersLoopOrHalts : Prop :=
  ∀ s : State, s.nextTurn = .block → s.PHASE = .init →
    ∃ t, step s = .next t ∧ t.AS = s.AS ∧ t.RXQ = s.RXQ ∧ t.BUF = s.BUF ∧ t.EP = s.EP ∧ t.OUT = s.OUT ∧
      t.TLM = s.TLM ∧ t.ST = s.ST ∧
      (s.initOk = true → t.PHASE = .poll ∧ t.EXIT = s.EXIT) ∧
      (s.initOk = false → t.PHASE = .halt ∧ ∃ n, t.EXIT = some n ∧ n ≠ 0)

/-- SLEEP changes only `PHASE` (44_control_loop.md section 2; that the model carries no time is D5's choice). -/
def Obligations.SleepChangesPhaseOnly : Prop :=
  ∀ s : State, s.nextTurn = .block → s.PHASE = .sleep →
    step s = .next { s.onTurn with PHASE := .poll }

/-- The sender's bytes land at the tail of the queue, in any phase, and nothing else changes
(20_memory.md section 2; when they land is the state's `ENV.turns`, notes/assumptions/2.md; that all of them land,
however many wait, is the choice of notes/assumptions/8.md, as D25 asks a claim to say). -/
def Obligations.SenderAppendsAtTail : Prop :=
  ∀ (s : State) (bytes : List Byte), s.nextTurn = .sender bytes →
    step s = .next { s.onTurn with RXQ := s.RXQ ++ bytes }

/-- Termination between two operations changes only `PHASE`: no endpoint is written, the queue is not flushed,
`AS` is not reset; so between two writes of an APPLY it leaves a mixture (44_control_loop.md section 4; D18's
choice). -/
def Obligations.TerminationLeavesOutputs : Prop :=
  ∀ s : State, s.nextTurn = .supervisor → step s = .next { s.onTurn with PHASE := .halt }

/-- Termination between the flush and the reset of a BADFRAME: the queue is empty and `AS` is as it was
(44_control_loop.md section 4; the order flush then reset is D27's choice). -/
def Obligations.TerminationInsideFailSafePath : Prop :=
  ∀ (s : State) (b0 b1 b2 b3 b4 b5 b6 : Byte), s.nextTurn = .supervisorInside → s.PHASE = .parse →
    s.BUF_VALID = true → FrameIs s.BUF b0 b1 b2 b3 b4 b5 b6 → b0 ≠ 0x26#8 ∨ b6 ≠ 0x40#8 →
    step s = .next { s.onTurn with PHASE := .halt, RXQ := [] }

/-- Termination inside any other operation: a POLL has cleared `ST` and read nothing; a PARSE of a frame with a good
envelope, or without a buffer, has done nothing; the others make one access, so nothing of them has happened
(44_control_loop.md section 4; the place inside the operation is the choice of notes/assumptions/2.md). -/
def Obligations.TerminationInsideOtherOperations : Prop :=
  ∀ s : State, s.nextTurn = .supervisorInside →
    (s.PHASE = .poll → step s = .next { s.onTurn with PHASE := .halt, ST := .cleared }) ∧
    (s.PHASE = .parse →
      s.BUF_VALID = false ∨ (Memory.read s.BUF 0 = 0x26#8 ∧ Memory.read s.BUF 6 = 0x40#8) →
      step s = .next { s.onTurn with PHASE := .halt }) ∧
    (s.PHASE ≠ .poll → s.PHASE ≠ .parse → step s = .next { s.onTurn with PHASE := .halt })

/-- Once halted the block issues no operation, for any number of steps and whatever the environment does: only the
sender's bytes can still reach the queue, behind what it held (44_control_loop.md section 4; that nothing is flushed is
D18's choice, notes/assumptions/15.md; that no byte is lost, however many wait, is the choice of
notes/assumptions/8.md, as D25 asks a claim to say; whose turn comes is notes/assumptions/2.md's). -/
def Obligations.HaltIsForever : Prop :=
  ∀ (n : Nat) (s : State), s.PHASE = .halt →
    ∃ t, steps n s = .next t ∧ t.PHASE = .halt ∧ t.AS = s.AS ∧ t.BUF = s.BUF ∧ t.TLM = s.TLM ∧
      t.ST = s.ST ∧ t.EP = s.EP ∧ t.OUT = s.OUT ∧ t.EXIT = s.EXIT ∧ s.RXQ <+: t.RXQ

/-- The complete transition relation of `PHASE` (44_control_loop.md section 1): no other change is possible. The
writes of one APPLY but the last stay in `P_APPLY` (notes/assumptions/1.md). -/
def Obligations.PhaseTransitions : Prop :=
  ∀ s t : State, step s = .next t →
    (∀ bytes, s.nextTurn = .sender bytes → t.PHASE = s.PHASE) ∧
    (s.nextTurn = .supervisor ∨ s.nextTurn = .supervisorInside → t.PHASE = .halt) ∧
    (s.nextTurn = .block →
      (s.PHASE = .init → t.PHASE = if s.initOk = true then .poll else .halt) ∧
      (s.PHASE = .poll → t.PHASE = if 7 ≤ s.RXQ.length then .parse else .sample) ∧
      (s.PHASE = .parse → t.PHASE = .sample) ∧
      (s.PHASE = .sample → t.PHASE = .apply) ∧
      (s.PHASE = .apply → t.PHASE = if s.WRITE_POS = .duty2 then .sleep else .apply) ∧
      (s.PHASE = .sleep → t.PHASE = .poll) ∧
      (s.PHASE = .halt → t.PHASE = .halt))

/-- Who may write what: `AS` only PARSE, `EP` and `OUT` only APPLY, `TLM` only SAMPLE, `BUF` only POLL, `BUF_VALID`
only POLL and PARSE, `ST` only the four operations of the cycle's work, and the queue only the sender, POLL, or the
flush of a BADFRAME; a termination inside an operation does no more than the part of it that came first
(10_state.md sections 1 to 7, 41_parser.md section 3; T11 of 95_test_vectors.md; the record `ST` is D15's,
terminations inside an operation are placed by notes/assumptions/2.md). -/
def Obligations.EachOperationWritesItsOwn : Prop :=
  ∀ s t : State, step s = .next t →
    (t.AS ≠ s.AS → s.nextTurn = .block ∧ s.PHASE = .parse) ∧
    (t.EP ≠ s.EP ∨ t.OUT ≠ s.OUT → s.nextTurn = .block ∧ s.PHASE = .apply) ∧
    (t.TLM ≠ s.TLM → s.nextTurn = .block ∧ s.PHASE = .sample) ∧
    (t.BUF ≠ s.BUF ∨ t.BUF_LEN ≠ s.BUF_LEN → s.nextTurn = .block ∧ s.PHASE = .poll) ∧
    (t.BUF_VALID ≠ s.BUF_VALID → s.nextTurn = .block ∧ (s.PHASE = .poll ∨ s.PHASE = .parse)) ∧
    (t.ST ≠ s.ST →
      (s.nextTurn = .block ∧ (s.PHASE = .poll ∨ s.PHASE = .parse ∨ s.PHASE = .sample ∨ s.PHASE = .apply)) ∨
      (s.nextTurn = .supervisorInside ∧ s.PHASE = .poll)) ∧
    (t.EXIT ≠ s.EXIT → s.nextTurn = .block ∧ s.PHASE = .init) ∧
    (t.RXQ ≠ s.RXQ → (∃ bytes, s.nextTurn = .sender bytes) ∨
      (s.nextTurn = .block ∧ s.PHASE = .poll) ∨
      ((s.nextTurn = .block ∨ s.nextTurn = .supervisorInside) ∧ s.PHASE = .parse ∧ holdsBadframe s = true))

/-- Who may read `AS`: only APPLY. A PARSE overwrites all of it without reading it; every other step, of whatever
agent, carries it along unread (10_state.md section 1; the step of an agent is notes/assumptions/2.md's). -/
def Obligations.OnlyApplyReadsCommand : Prop :=
  ∀ (s t : State) (a : ActuatorState), step s = .next t →
    (s.nextTurn = .block ∧ s.PHASE = .parse → step { s with AS := a } = .next t) ∧
    (¬ (s.nextTurn = .block ∧ (s.PHASE = .parse ∨ s.PHASE = .apply)) →
      step { s with AS := a } = .next { t with AS := a })

/-- Nothing reads the status record or the telemetry: two states that differ only there take steps that differ only
there (10_state.md sections 4 and 5, 43_sensor_telemetry.md section 5; T14 of 95_test_vectors.md). -/
def Obligations.StatusAndTelemetryFeedNothingBack : Prop :=
  ∀ (s : State) (st : Status) (tlm : Telemetry),
    match step s, step { s with ST := st, TLM := tlm } with
    | .next t, .next u => { u with ST := t.ST, TLM := t.TLM } = t
    | .fault r, .fault q => r = q
    | .refused r, .refused q => r = q
    | _, _ => False

/-- A step refuses never, and faults only in a PARSE without a buffer (41_parser.md section 1's precondition; the
fault is the model's, notes/assumptions/11.md). -/
def Obligations.OnlyParseWithoutFrameStops : Prop :=
  (∀ (s : State) (r : Refusal), step s ≠ .refused r) ∧
  (∀ (s : State) (r : Fault), step s = .fault r →
    s.nextTurn = .block ∧ s.PHASE = .parse ∧ s.BUF_VALID = false ∧ r = .parseWithoutBuffer)

/-! ### Invariants and whole-machine claims -/

/-- After reset `AS` is `ALL_OFF`, and `ALL_OFF` has both duties 0 and the three bools false; it is also where a
BADFRAME leaves `AS` (10_state.md R11). -/
def Obligations.ResetCommandIsAllOff : Prop :=
  State.reset.AS = ALL_OFF ∧
  ALL_OFF = { pwm1 := 0#8, pwm2 := 0#8, pwm1_dir := false, pwm2_dir := false, relay := false } ∧
  (∀ (b0 b1 b2 b3 b4 b5 b6 : Byte) (s : State),
    ∃ t, exec (.badframe b0 b1 b2 b3 b4 b5 b6) s = .next t ∧ t.AS = ALL_OFF)

/-- The other registers at reset (10_state.md section 9; D17's choices). Each byte of the buffer and the queue are any
value: uninterpreted constants, so that nothing follows from them (notes/assumptions 4 and 5). -/
def Obligations.ResetRegisters : Prop :=
  State.reset.PHASE = .init ∧ State.reset.BUF_VALID = false ∧ State.reset.BUF_LEN = 0 ∧
  State.reset.TLM = { xa := 0, ya := 0, za := 0, err := false } ∧ State.reset.ST = .cleared ∧
  State.reset.OUT = [] ∧ (∀ e, State.reset.EP.get e = none) ∧
  (∀ k, Memory.read State.reset.BUF k = Config.bufAtReset k) ∧ State.reset.RXQ = Config.rxqAtReset

/-- The invariants below hold at reset. -/
def Obligations.InvariantsHoldAtReset : Prop :=
  BufferReady State.reset ∧ TraceOrdered State.reset ∧ EndpointsFollowTrace State.reset ∧
  StatusConsistent State.reset ∧ StartUp State.reset

/-- Every step keeps the buffer canonical, inside its capacity, written as far as `BUF_LEN` says, and valid exactly
for the PARSE of its cycle (10_state.md section 2, 40_receiver.md sections 2 and 3; `BUF_LEN` and `BUF_VALID` are
D3's). -/
def Obligations.BufferReadyIsKept : Prop :=
  ∀ s t : State, BufferReady s → step s = .next t → BufferReady t

/-- From every state whose buffer fits its phase the machine takes a step: no frame, no error and nothing the
environment does makes it fault or refuse (60_exceptions.md section 1, 44_control_loop.md section 7; that the sensor
always answers is notes/assumptions/14.md). -/
def Obligations.MachineNeverStops : Prop :=
  ∀ s : State, BufferReady s → ∃ t, step s = .next t

/-- Every step keeps the output trace in the write order: directions before the relay and the relay before the
duties, in every APPLY of the run (70_reset_and_hazards.md section 3; channel 1 before channel 2 is D10's choice). -/
def Obligations.WriteOrderIsKept : Prop :=
  ∀ s t : State, TraceOrdered s → step s = .next t → TraceOrdered t

/-- Every step keeps each endpoint at the last value accepted for it (10_state.md section 7, 42_driver.md section 3;
D12's choice). -/
def Obligations.EndpointsFollowTraceIsKept : Prop :=
  ∀ s t : State, EndpointsFollowTrace s → step s = .next t → EndpointsFollowTrace t

/-- Every step keeps the status record consistent with what the cycle did (10_state.md section 5; D15's record). -/
def Obligations.StatusConsistencyIsKept : Prop :=
  ∀ s t : State, StatusConsistent s → step s = .next t → StatusConsistent t

/-- Every step keeps: before the loop starts, and after a failed start, nothing was read or written, and a failed
start has a status that is not 0 (44_control_loop.md section 3, 70_reset_and_hazards.md section 2). -/
def Obligations.StartUpIsKept : Prop :=
  ∀ s t : State, StartUp s → step s = .next t → StartUp t

/-- From any phase but `P_HALT`, if the supervisor does not act, the block's moves bring it to `P_POLL` within nine of
them (the five operations of 95_test_vectors.md T10, APPLY counted as its five writes), and at least one, however many
turns of the sender lie between; from `P_INIT` the loop is entered, or the block halts on a failed initialisation
(44_control_loop.md section 7; five writes to an APPLY by notes/assumptions/1.md, turns by notes/assumptions/2.md, and
the sensor always answers by notes/assumptions/14.md). -/
def Obligations.LoopReturnsToPoll : Prop :=
  ∀ s : State, BufferReady s → s.PHASE ≠ .halt → s.Undisturbed →
    ∃ n t, 1 ≤ s.blockMoves n ∧ s.blockMoves n ≤ 9 ∧ steps n s = .next t ∧
      (t.PHASE = .poll ∨ (s.PHASE = .init ∧ t.PHASE = .halt ∧ t.EXIT ≠ none))

/-- A malformed frame at the head of the queue turns everything off within the cycle, whatever arrives meanwhile: when
the block has moved eight times, with PARSE as turn `j`, `AS` is `ALL_OFF`, the queue holds just what arrived after the
flush, the cycle's APPLY has issued the five all-off writes, and if they were all accepted every endpoint is off
(44_control_loop.md section 7; choices of D10, D11 and D12; the sensor answers by notes/assumptions/14.md, five writes
to an APPLY by notes/assumptions/1.md, no byte lost by notes/assumptions/8.md). -/
def Obligations.MalformedFrameTurnsAllOff : Prop :=
  ∀ (s : State) (b0 b1 b2 b3 b4 b5 b6 : Byte) (more : List Byte) (j n : Nat),
    s.Undisturbed → s.PHASE = .poll → s.RXQ = b0 :: b1 :: b2 :: b3 :: b4 :: b5 :: b6 :: more →
    b0 ≠ 0x26#8 ∨ b6 ≠ 0x40#8 → s.BlockMove 1 j → s.blockMoves n = 8 →
    ∃ t, steps n s = .next t ∧ t.PHASE = .sleep ∧ t.AS = ALL_OFF ∧ t.RXQ = s.arrived j n ∧
      (∃ events, t.OUT = s.OUT ++ events ∧
        events.map (fun w => (w.endpoint, w.value)) =
          [(.dir1, .level false), (.dir2, .level false), (.relay, .level false),
           (.duty1, .duty 0#8), (.duty2, .duty 0#8)]) ∧
      (∀ m u, s.blockMoves m = 3 → steps m s = .next u → (∀ k, k < 5 → u.writeResult k = .ok) →
        t.EP = Endpoints.allOff)

/-- A frame is on the endpoints by the end of its own cycle's APPLY, whatever arrives meanwhile: with POLL as turn `i`,
seven bytes waiting then, and PARSE as turn `j`, the command that PARSE left is the one all five writes carry, in
order, when the block has moved eight times, and if they were accepted every endpoint presents it; no cycle lies
between parse and apply (44_control_loop.md section 7; choices of D10, D11 and D12; the sensor answers by
notes/assumptions/14.md, five writes to an APPLY by notes/assumptions/1.md, no byte lost by notes/assumptions/8.md). -/
def Obligations.FrameReachesEndpointsInItsCycle : Prop :=
  ∀ (s : State) (i j n : Nat), s.Undisturbed → s.PHASE = .poll →
    s.BlockMove 0 i → 7 ≤ (s.RXQ ++ s.arrived 0 i).length → s.BlockMove 1 j → s.blockMoves n = 8 →
    ∃ u t, steps (j + 1) s = .next u ∧ steps n s = .next t ∧ t.PHASE = .sleep ∧ t.AS = u.AS ∧
      (∃ events, t.OUT = s.OUT ++ events ∧
        events.map (fun w => (w.endpoint, w.value)) = writeOrder.map (fun e => (e, u.AS.valueFor e))) ∧
      (∀ m v, s.blockMoves m = 3 → steps m s = .next v → (∀ k, k < 5 → v.writeResult k = .ok) →
        ∀ e, t.EP.get e = some (u.AS.valueFor e))

/-- Silence holds the command: with fewer than seven bytes waiting and nothing arriving, any number of whole cycles
leaves `AS` and the queue as they were, and each cycle's APPLY writes that same `AS` to all five endpoints
(40_receiver.md section 2; that nothing watches for silence is D19's choice, the order of the writes D10's, that all
five are issued D11's; the sensor answers by notes/assumptions/14.md). -/
def Obligations.SilenceHoldsCommand : Prop :=
  ∀ (n : Nat) (s : State), s.ENV.turns = [] → s.PHASE = .poll → s.RXQ.length < 7 →
    ∃ t, steps (8 * n) s = .next t ∧ t.PHASE = .poll ∧ t.AS = s.AS ∧ t.RXQ = s.RXQ ∧ t.BUF = s.BUF ∧
      ∃ events, t.OUT = s.OUT ++ events ∧
        events.map (fun w => (w.endpoint, w.value))
          = (List.replicate n (writeOrder.map (fun e => (e, s.AS.valueFor e)))).flatten

/-- Sustained malformed input never turns anything on: from `AS = ALL_OFF`, along any run in which every PARSE finds a
bad envelope, `AS` stays `ALL_OFF` and every write the run issues carries its endpoint's off value
(41_parser.md section 9, 42_driver.md section 2; the trace is D1's). -/
def Obligations.MalformedInputStaysOff : Prop :=
  ∀ (n : Nat) (s t : State), s.AS = ALL_OFF →
    (∀ k u b0 b1 b2 b3 b4 b5 b6, k < n → steps k s = .next u → u.PHASE = .parse →
      FrameIs u.BUF b0 b1 b2 b3 b4 b5 b6 → b0 ≠ 0x26#8 ∨ b6 ≠ 0x40#8) →
    steps n s = .next t →
    t.AS = ALL_OFF ∧
      ∃ events, t.OUT = s.OUT ++ events ∧ ∀ w ∈ events, w.value = ALL_OFF.valueFor w.endpoint
end

