-- ==== Sys2Proof/Laws/Buffer.lean ====
section
/-! SUPPORT. The laws of the frame buffer: reading after writing, and that every write keeps the canonical
form (notes/assumptions/5.md). -/

namespace Sys2Proof.Machine

/-- The byte written is the byte found. -/
@[simp] theorem Memory.lookup_write_self (m : Memory) (k : Nat) (v : Byte) :
    Memory.lookup (Memory.write m k v) k = some v := by
  induction m with
  | nil => simp [Memory.write, Memory.lookup]
  | cons c m ih =>
    obtain ⟨a, b⟩ := c
    simp only [Memory.write]
    split
    · simp [Memory.lookup]
    · split
      · simp [Memory.lookup]
      · simp [Memory.lookup, *]

/-- A write leaves every other offset alone. -/
theorem Memory.lookup_write_of_ne (m : Memory) {k j : Nat} (v : Byte) (h : j ≠ k) :
    Memory.lookup (Memory.write m k v) j = Memory.lookup m j := by
  induction m with
  | nil => simp [Memory.write, Memory.lookup, h]
  | cons c m ih =>
    obtain ⟨a, b⟩ := c
    simp only [Memory.write]
    split
    · simp [Memory.lookup, h]
    · split
      · next h2 => subst h2; simp [Memory.lookup, h]
      · simp only [Memory.lookup, ih]

/-- The cells of a memory after a write are the cell written and cells it had. -/
theorem Memory.mem_write {m : Memory} {k : Nat} {v : Byte} {c : Host.Cell}
    (h : c ∈ Memory.write m k v) : c = (k, v) ∨ c ∈ m := by
  induction m with
  | nil => simpa [Memory.write] using h
  | cons d m ih =>
    obtain ⟨a, b⟩ := d
    simp only [Memory.write] at h
    split at h
    · simpa using h
    · split at h
      · rcases List.mem_cons.mp h with h | h
        · exact .inl h
        · exact .inr (List.mem_cons_of_mem _ h)
      · rcases List.mem_cons.mp h with h | h
        · exact .inr (h ▸ List.mem_cons_self)
        · exact (ih h).imp id (List.mem_cons_of_mem _)

/-- A write keeps the canonical form. -/
theorem Memory.wf_write {m : Memory} (k : Nat) (v : Byte) (h : Memory.wf m) :
    Memory.wf (Memory.write m k v) := by
  induction m with
  | nil => simp [Memory.write, Memory.wf]
  | cons d m ih =>
    obtain ⟨a, b⟩ := d
    have ha : ∀ c ∈ m, a < c.1 := fun c hc => List.rel_of_pairwise_cons h hc
    have hm : Memory.wf m := List.Pairwise.of_cons h
    simp only [Memory.write]
    split
    · next hlt =>
      refine List.pairwise_cons.mpr ⟨fun c hc => ?_, h⟩
      rcases List.mem_cons.mp hc with rfl | hc
      · exact hlt
      · exact Nat.lt_trans hlt (ha c hc)
    · split
      · next heq => exact List.pairwise_cons.mpr ⟨fun c hc => heq ▸ ha c hc, hm⟩
      · next hlt hne =>
        refine List.pairwise_cons.mpr ⟨fun c hc => ?_, ih hm⟩
        rcases Memory.mem_write hc with rfl | hc
        · show a < k; omega
        · exact ha c hc

/-- A block write keeps the canonical form. -/
theorem Memory.wf_writeBytes {m : Memory} (k : Nat) (bs : List Byte) (h : Memory.wf m) :
    Memory.wf (Memory.writeBytes m k bs) := by
  induction bs generalizing m k with
  | nil => exact h
  | cons b bs ih => exact ih (k + 1) (Memory.wf_write k b h)

/-- What is found at an offset after a block write: the byte written there, or what was found before. -/
theorem Memory.lookup_writeBytes (m : Memory) (k : Nat) (bs : List Byte) (j : Nat) :
    Memory.lookup (Memory.writeBytes m k bs) j
      = if k ≤ j ∧ j < k + bs.length then bs[j - k]? else Memory.lookup m j := by
  induction bs generalizing m k with
  | nil => simp [Memory.writeBytes]
  | cons b bs ih =>
    simp only [Memory.writeBytes, ih, List.length_cons]
    by_cases hk : j = k
    · subst hk
      rw [if_neg (by omega), if_pos (by omega), Memory.lookup_write_self]
      simp
    · rw [Memory.lookup_write_of_ne _ _ hk]
      by_cases hj : k + 1 ≤ j ∧ j < k + 1 + bs.length
      · rw [if_pos hj, if_pos (by omega), show j - k = (j - (k + 1)) + 1 by omega, List.getElem?_cons_succ]
      · rw [if_neg hj, if_neg (by omega)]

/-- After a block write of `bs` at 0 the lookup finds `bs`, and what it found before above them. -/
theorem Memory.lookup_writeBytes_zero (m : Memory) (bs : List Byte) (j : Nat) :
    Memory.lookup (Memory.writeBytes m 0 bs) j = if j < bs.length then bs[j]? else Memory.lookup m j := by
  simp [Memory.lookup_writeBytes]

/-- The byte written is the byte read back. -/
@[simp] theorem Memory.read_write_self (m : Memory) (k : Nat) (v : Byte) :
    Memory.read (Memory.write m k v) k = v := by
  simp [Memory.read]

/-- A write leaves the byte of every other offset alone. -/
theorem Memory.read_write_of_ne (m : Memory) {k j : Nat} (v : Byte) (h : j ≠ k) :
    Memory.read (Memory.write m k v) j = Memory.read m j := by
  simp only [Memory.read, Memory.lookup_write_of_ne m v h]

/-- A block write of `bs` at 0 reads back `bs`. -/
theorem Memory.read_writeBytes_zero_of_lt (m : Memory) {bs : List Byte} {j : Nat} (h : j < bs.length) :
    some (Memory.read (Memory.writeBytes m 0 bs) j) = bs[j]? := by
  simp [Memory.read, Memory.lookup_writeBytes_zero, h]

/-- A block write of `bs` at 0 leaves every byte above them alone. -/
theorem Memory.read_writeBytes_zero_of_le (m : Memory) {bs : List Byte} {j : Nat} (h : bs.length ≤ j) :
    Memory.read (Memory.writeBytes m 0 bs) j = Memory.read m j := by
  simp only [Memory.read, Memory.lookup_writeBytes_zero, if_neg (Nat.not_lt.mpr h)]

/-- The cells after a block write lie at offsets it wrote, or are cells the memory had. -/
theorem Memory.mem_writeBytes {m : Memory} {k : Nat} {bs : List Byte} {c : Host.Cell}
    (h : c ∈ Memory.writeBytes m k bs) : (k ≤ c.1 ∧ c.1 < k + bs.length) ∨ c ∈ m := by
  induction bs generalizing m k with
  | nil => exact .inr h
  | cons b bs ih =>
    simp only [List.length_cons]
    rcases ih h with h | h
    · exact .inl (by omega)
    · rcases Memory.mem_write h with rfl | h
      · exact .inl (by simp)
      · exact .inr h

end Sys2Proof.Machine
end

