-- ==== Sys2Proof/Laws/Decode.lean ====
section
/-! SUPPORT. The small laws of the decoder and of the operand forms (spec/30_encoding.md). -/

namespace Sys2Proof

/-- Seven bytes and what follows them are never rejected. -/
@[simp] theorem decode_seven (b0 b1 b2 b3 b4 b5 b6 : Byte) (rest : List Byte) :
    decode (b0 :: b1 :: b2 :: b3 :: b4 :: b5 :: b6 :: rest)
      = .ok (decodeFrame b0 b1 b2 b3 b4 b5 b6) rest := rfl

/-- What the decoder accepts has at least seven bytes and decodes by its first seven. -/
theorem decode_cases {bs : List Byte} {i : Instr} {rest : List Byte} (h : decode bs = .ok i rest) :
    ∃ b0 b1 b2 b3 b4 b5 b6, bs = b0 :: b1 :: b2 :: b3 :: b4 :: b5 :: b6 :: rest ∧
      i = decodeFrame b0 b1 b2 b3 b4 b5 b6 := by
  unfold decode at h
  split at h
  · next b0 b1 b2 b3 b4 b5 b6 r =>
    cases h
    exact ⟨b0, b1, b2, b3, b4, b5, b6, rfl, rfl⟩
  · cases h

/-- R54's condition for a recognised digit. -/
theorem digit_recognised (b : Byte) : (digit b).recognised = true ↔ 0x30#8 ≤ b ∧ b ≤ 0x37#8 := by
  unfold digit
  split <;> simp_all

/-- The character of a digit decodes to its three bits. -/
theorem digit_digitChar (r q p : Bool) : digit (digitChar r q p) = ⟨true, r, q, p⟩ := by
  cases r <;> cases q <;> cases p <;> decide

/-- A frame whose envelope fails is a BADFRAME. -/
theorem decodeFrame_of_bad {b0 b6 : Byte} (h : ¬ (b0 = Config.HDR ∧ b6 = Config.FTR)) (b1 b2 b3 b4 b5 : Byte) :
    decodeFrame b0 b1 b2 b3 b4 b5 b6 = .badframe b0 b1 b2 b3 b4 b5 b6 := by
  simp only [decodeFrame, h, if_false]

end Sys2Proof

namespace Sys2Proof.Machine

/-- A hexadecimal digit has a value below 16. -/
theorem hexval_lt {b : Byte} {n : Nat} (h : hexval b = some n) : n < 16 := by
  revert n
  revert b
  decide

/-- The character of a value is a digit with that value. -/
theorem hexval_HEXCH : ∀ n, n < 16 → hexval (HEXCH n) = some n := by decide

/-- `hex2` fails exactly when one of its bytes is no digit. -/
theorem hex2_eq_none (hi lo : Byte) : hex2 hi lo = none ↔ hexval hi = none ∨ hexval lo = none := by
  unfold hex2
  cases hexval hi <;> cases hexval lo <;> simp

/-- A field of two digits lies in 0..255 (R55). -/
theorem hex2_range {hi lo : Byte} {v : Int} (h : hex2 hi lo = some v) : 0 ≤ v ∧ v ≤ 255 := by
  unfold hex2 at h
  split at h
  · next a b ha hb =>
    have := hexval_lt ha
    have := hexval_lt hb
    cases h
    omega
  · cases h

end Sys2Proof.Machine
end

