-- ==== Sys2Proof/Laws/State.lean ====
section
/-! SUPPORT. One lemma per field per update of State, and the fields the environment's draws leave. -/

namespace Sys2Proof.Machine

/-! ### Taking a turn -/

@[simp] theorem onTurn_AS (s : State) : s.onTurn.AS = s.AS := rfl
@[simp] theorem onTurn_PHASE (s : State) : s.onTurn.PHASE = s.PHASE := rfl
@[simp] theorem onTurn_BUF (s : State) : s.onTurn.BUF = s.BUF := rfl
@[simp] theorem onTurn_BUF_LEN (s : State) : s.onTurn.BUF_LEN = s.BUF_LEN := rfl
@[simp] theorem onTurn_BUF_VALID (s : State) : s.onTurn.BUF_VALID = s.BUF_VALID := rfl
@[simp] theorem onTurn_TLM (s : State) : s.onTurn.TLM = s.TLM := rfl
@[simp] theorem onTurn_ST (s : State) : s.onTurn.ST = s.ST := rfl
@[simp] theorem onTurn_RXQ (s : State) : s.onTurn.RXQ = s.RXQ := rfl
@[simp] theorem onTurn_EP (s : State) : s.onTurn.EP = s.EP := rfl
@[simp] theorem onTurn_OUT (s : State) : s.onTurn.OUT = s.OUT := rfl
@[simp] theorem onTurn_WRITE_POS (s : State) : s.onTurn.WRITE_POS = s.WRITE_POS := rfl
@[simp] theorem onTurn_EXIT (s : State) : s.onTurn.EXIT = s.EXIT := rfl
@[simp] theorem onTurn_ENV (s : State) : s.onTurn.ENV = { s.ENV with turns := s.ENV.turns.tail } := rfl

/-! ### `SER.read` (R31) -/

@[simp] theorem serRead_AS (n : Nat) (s : State) : (serRead n s).AS = s.AS := rfl
@[simp] theorem serRead_PHASE (n : Nat) (s : State) : (serRead n s).PHASE = s.PHASE := rfl
@[simp] theorem serRead_BUF (n : Nat) (s : State) : (serRead n s).BUF = s.BUF := rfl
@[simp] theorem serRead_BUF_LEN (n : Nat) (s : State) : (serRead n s).BUF_LEN = s.BUF_LEN := rfl
@[simp] theorem serRead_BUF_VALID (n : Nat) (s : State) : (serRead n s).BUF_VALID = s.BUF_VALID := rfl
@[simp] theorem serRead_TLM (n : Nat) (s : State) : (serRead n s).TLM = s.TLM := rfl
@[simp] theorem serRead_ST (n : Nat) (s : State) : (serRead n s).ST = s.ST := rfl
@[simp] theorem serRead_RXQ (n : Nat) (s : State) : (serRead n s).RXQ = s.RXQ.drop n := rfl
@[simp] theorem serRead_EP (n : Nat) (s : State) : (serRead n s).EP = s.EP := rfl
@[simp] theorem serRead_OUT (n : Nat) (s : State) : (serRead n s).OUT = s.OUT := rfl
@[simp] theorem serRead_WRITE_POS (n : Nat) (s : State) : (serRead n s).WRITE_POS = s.WRITE_POS := rfl
@[simp] theorem serRead_EXIT (n : Nat) (s : State) : (serRead n s).EXIT = s.EXIT := rfl
@[simp] theorem serRead_ENV (n : Nat) (s : State) : (serRead n s).ENV = s.ENV := rfl

/-! ### `SER.flush` (R31) -/

@[simp] theorem serFlush_AS (s : State) : (serFlush s).AS = s.AS := rfl
@[simp] theorem serFlush_PHASE (s : State) : (serFlush s).PHASE = s.PHASE := rfl
@[simp] theorem serFlush_BUF (s : State) : (serFlush s).BUF = s.BUF := rfl
@[simp] theorem serFlush_BUF_LEN (s : State) : (serFlush s).BUF_LEN = s.BUF_LEN := rfl
@[simp] theorem serFlush_BUF_VALID (s : State) : (serFlush s).BUF_VALID = s.BUF_VALID := rfl
@[simp] theorem serFlush_TLM (s : State) : (serFlush s).TLM = s.TLM := rfl
@[simp] theorem serFlush_ST (s : State) : (serFlush s).ST = s.ST := rfl
@[simp] theorem serFlush_RXQ (s : State) : (serFlush s).RXQ = [] := rfl
@[simp] theorem serFlush_EP (s : State) : (serFlush s).EP = s.EP := rfl
@[simp] theorem serFlush_OUT (s : State) : (serFlush s).OUT = s.OUT := rfl
@[simp] theorem serFlush_WRITE_POS (s : State) : (serFlush s).WRITE_POS = s.WRITE_POS := rfl
@[simp] theorem serFlush_EXIT (s : State) : (serFlush s).EXIT = s.EXIT := rfl
@[simp] theorem serFlush_ENV (s : State) : (serFlush s).ENV = s.ENV := rfl

/-! ### The sender's bytes (R31) -/

@[simp] theorem serArrive_AS (bytes : List Byte) (s : State) : (serArrive bytes s).AS = s.AS := rfl
@[simp] theorem serArrive_PHASE (bytes : List Byte) (s : State) : (serArrive bytes s).PHASE = s.PHASE := rfl
@[simp] theorem serArrive_BUF (bytes : List Byte) (s : State) : (serArrive bytes s).BUF = s.BUF := rfl
@[simp] theorem serArrive_BUF_LEN (bytes : List Byte) (s : State) : (serArrive bytes s).BUF_LEN = s.BUF_LEN := rfl
@[simp] theorem serArrive_BUF_VALID (bytes : List Byte) (s : State) : (serArrive bytes s).BUF_VALID = s.BUF_VALID := rfl
@[simp] theorem serArrive_TLM (bytes : List Byte) (s : State) : (serArrive bytes s).TLM = s.TLM := rfl
@[simp] theorem serArrive_ST (bytes : List Byte) (s : State) : (serArrive bytes s).ST = s.ST := rfl
@[simp] theorem serArrive_RXQ (bytes : List Byte) (s : State) : (serArrive bytes s).RXQ = s.RXQ ++ bytes := rfl
@[simp] theorem serArrive_EP (bytes : List Byte) (s : State) : (serArrive bytes s).EP = s.EP := rfl
@[simp] theorem serArrive_OUT (bytes : List Byte) (s : State) : (serArrive bytes s).OUT = s.OUT := rfl
@[simp] theorem serArrive_WRITE_POS (bytes : List Byte) (s : State) : (serArrive bytes s).WRITE_POS = s.WRITE_POS := rfl
@[simp] theorem serArrive_EXIT (bytes : List Byte) (s : State) : (serArrive bytes s).EXIT = s.EXIT := rfl
@[simp] theorem serArrive_ENV (bytes : List Byte) (s : State) : (serArrive bytes s).ENV = s.ENV := rfl

/-! ### The update of `AS` (R42) -/

@[simp] theorem commit_AS (a : ActuatorState) (s : State) : (commit a s).AS = a := rfl
@[simp] theorem commit_PHASE (a : ActuatorState) (s : State) : (commit a s).PHASE = s.PHASE := rfl
@[simp] theorem commit_BUF (a : ActuatorState) (s : State) : (commit a s).BUF = s.BUF := rfl
@[simp] theorem commit_BUF_LEN (a : ActuatorState) (s : State) : (commit a s).BUF_LEN = s.BUF_LEN := rfl
@[simp] theorem commit_BUF_VALID (a : ActuatorState) (s : State) : (commit a s).BUF_VALID = s.BUF_VALID := rfl
@[simp] theorem commit_TLM (a : ActuatorState) (s : State) : (commit a s).TLM = s.TLM := rfl
@[simp] theorem commit_ST (a : ActuatorState) (s : State) : (commit a s).ST = s.ST := rfl
@[simp] theorem commit_RXQ (a : ActuatorState) (s : State) : (commit a s).RXQ = s.RXQ := rfl
@[simp] theorem commit_EP (a : ActuatorState) (s : State) : (commit a s).EP = s.EP := rfl
@[simp] theorem commit_OUT (a : ActuatorState) (s : State) : (commit a s).OUT = s.OUT := rfl
@[simp] theorem commit_WRITE_POS (a : ActuatorState) (s : State) : (commit a s).WRITE_POS = s.WRITE_POS := rfl
@[simp] theorem commit_EXIT (a : ActuatorState) (s : State) : (commit a s).EXIT = s.EXIT := rfl
@[simp] theorem commit_ENV (a : ActuatorState) (s : State) : (commit a s).ENV = s.ENV := rfl

/-! ### PARSE's closing lines (R80) -/

@[simp] theorem endParse_AS (s : State) : (endParse s).AS = s.AS := rfl
@[simp] theorem endParse_PHASE (s : State) : (endParse s).PHASE = .sample := rfl
@[simp] theorem endParse_BUF (s : State) : (endParse s).BUF = s.BUF := rfl
@[simp] theorem endParse_BUF_LEN (s : State) : (endParse s).BUF_LEN = s.BUF_LEN := rfl
@[simp] theorem endParse_BUF_VALID (s : State) : (endParse s).BUF_VALID = false := rfl
@[simp] theorem endParse_TLM (s : State) : (endParse s).TLM = s.TLM := rfl
@[simp] theorem endParse_ST (s : State) : (endParse s).ST = s.ST := rfl
@[simp] theorem endParse_RXQ (s : State) : (endParse s).RXQ = s.RXQ := rfl
@[simp] theorem endParse_EP (s : State) : (endParse s).EP = s.EP := rfl
@[simp] theorem endParse_OUT (s : State) : (endParse s).OUT = s.OUT := rfl
@[simp] theorem endParse_WRITE_POS (s : State) : (endParse s).WRITE_POS = s.WRITE_POS := rfl
@[simp] theorem endParse_EXIT (s : State) : (endParse s).EXIT = s.EXIT := rfl
@[simp] theorem endParse_ENV (s : State) : (endParse s).ENV = s.ENV := rfl

/-! ### SLEEP (R123) -/

@[simp] theorem sleep_AS (s : State) : (sleep s).AS = s.AS := rfl
@[simp] theorem sleep_PHASE (s : State) : (sleep s).PHASE = .poll := rfl
@[simp] theorem sleep_BUF (s : State) : (sleep s).BUF = s.BUF := rfl
@[simp] theorem sleep_BUF_LEN (s : State) : (sleep s).BUF_LEN = s.BUF_LEN := rfl
@[simp] theorem sleep_BUF_VALID (s : State) : (sleep s).BUF_VALID = s.BUF_VALID := rfl
@[simp] theorem sleep_TLM (s : State) : (sleep s).TLM = s.TLM := rfl
@[simp] theorem sleep_ST (s : State) : (sleep s).ST = s.ST := rfl
@[simp] theorem sleep_RXQ (s : State) : (sleep s).RXQ = s.RXQ := rfl
@[simp] theorem sleep_EP (s : State) : (sleep s).EP = s.EP := rfl
@[simp] theorem sleep_OUT (s : State) : (sleep s).OUT = s.OUT := rfl
@[simp] theorem sleep_WRITE_POS (s : State) : (sleep s).WRITE_POS = s.WRITE_POS := rfl
@[simp] theorem sleep_EXIT (s : State) : (sleep s).EXIT = s.EXIT := rfl
@[simp] theorem sleep_ENV (s : State) : (sleep s).ENV = s.ENV := rfl

/-! ### Termination (R125) -/

@[simp] theorem terminate_AS (s : State) : (terminate s).AS = s.AS := rfl
@[simp] theorem terminate_PHASE (s : State) : (terminate s).PHASE = .halt := rfl
@[simp] theorem terminate_BUF (s : State) : (terminate s).BUF = s.BUF := rfl
@[simp] theorem terminate_BUF_LEN (s : State) : (terminate s).BUF_LEN = s.BUF_LEN := rfl
@[simp] theorem terminate_BUF_VALID (s : State) : (terminate s).BUF_VALID = s.BUF_VALID := rfl
@[simp] theorem terminate_TLM (s : State) : (terminate s).TLM = s.TLM := rfl
@[simp] theorem terminate_ST (s : State) : (terminate s).ST = s.ST := rfl
@[simp] theorem terminate_RXQ (s : State) : (terminate s).RXQ = s.RXQ := rfl
@[simp] theorem terminate_EP (s : State) : (terminate s).EP = s.EP := rfl
@[simp] theorem terminate_OUT (s : State) : (terminate s).OUT = s.OUT := rfl
@[simp] theorem terminate_WRITE_POS (s : State) : (terminate s).WRITE_POS = s.WRITE_POS := rfl
@[simp] theorem terminate_EXIT (s : State) : (terminate s).EXIT = s.EXIT := rfl
@[simp] theorem terminate_ENV (s : State) : (terminate s).ENV = s.ENV := rfl

/-! ### Consuming a write result (R103) -/

@[simp] theorem drawWrite_AS (s : State) : (drawWrite s).AS = s.AS := by
  unfold drawWrite; split <;> rfl

@[simp] theorem drawWrite_PHASE (s : State) : (drawWrite s).PHASE = s.PHASE := by
  unfold drawWrite; split <;> rfl

@[simp] theorem drawWrite_BUF (s : State) : (drawWrite s).BUF = s.BUF := by
  unfold drawWrite; split <;> rfl

@[simp] theorem drawWrite_BUF_LEN (s : State) : (drawWrite s).BUF_LEN = s.BUF_LEN := by
  unfold drawWrite; split <;> rfl

@[simp] theorem drawWrite_BUF_VALID (s : State) : (drawWrite s).BUF_VALID = s.BUF_VALID := by
  unfold drawWrite; split <;> rfl

@[simp] theorem drawWrite_TLM (s : State) : (drawWrite s).TLM = s.TLM := by
  unfold drawWrite; split <;> rfl

@[simp] theorem drawWrite_ST (s : State) : (drawWrite s).ST = s.ST := by
  unfold drawWrite; split <;> rfl

@[simp] theorem drawWrite_RXQ (s : State) : (drawWrite s).RXQ = s.RXQ := by
  unfold drawWrite; split <;> rfl

@[simp] theorem drawWrite_EP (s : State) : (drawWrite s).EP = s.EP := by
  unfold drawWrite; split <;> rfl

@[simp] theorem drawWrite_OUT (s : State) : (drawWrite s).OUT = s.OUT := by
  unfold drawWrite; split <;> rfl

@[simp] theorem drawWrite_WRITE_POS (s : State) : (drawWrite s).WRITE_POS = s.WRITE_POS := by
  unfold drawWrite; split <;> rfl

@[simp] theorem drawWrite_EXIT (s : State) : (drawWrite s).EXIT = s.EXIT := by
  unfold drawWrite; split <;> rfl

@[simp] theorem drawWrite_turns (s : State) : (drawWrite s).ENV.turns = s.ENV.turns := by
  unfold drawWrite; split <;> rfl

/-! ### Consuming a sensor result (R110) -/

@[simp] theorem drawSensor_AS (s : State) : (drawSensor s).AS = s.AS := by
  unfold drawSensor; split <;> rfl

@[simp] theorem drawSensor_PHASE (s : State) : (drawSensor s).PHASE = s.PHASE := by
  unfold drawSensor; split <;> rfl

@[simp] theorem drawSensor_BUF (s : State) : (drawSensor s).BUF = s.BUF := by
  unfold drawSensor; split <;> rfl

@[simp] theorem drawSensor_BUF_LEN (s : State) : (drawSensor s).BUF_LEN = s.BUF_LEN := by
  unfold drawSensor; split <;> rfl

@[simp] theorem drawSensor_BUF_VALID (s : State) : (drawSensor s).BUF_VALID = s.BUF_VALID := by
  unfold drawSensor; split <;> rfl

@[simp] theorem drawSensor_TLM (s : State) : (drawSensor s).TLM = s.TLM := by
  unfold drawSensor; split <;> rfl

@[simp] theorem drawSensor_ST (s : State) : (drawSensor s).ST = s.ST := by
  unfold drawSensor; split <;> rfl

@[simp] theorem drawSensor_RXQ (s : State) : (drawSensor s).RXQ = s.RXQ := by
  unfold drawSensor; split <;> rfl

@[simp] theorem drawSensor_EP (s : State) : (drawSensor s).EP = s.EP := by
  unfold drawSensor; split <;> rfl

@[simp] theorem drawSensor_OUT (s : State) : (drawSensor s).OUT = s.OUT := by
  unfold drawSensor; split <;> rfl

@[simp] theorem drawSensor_WRITE_POS (s : State) : (drawSensor s).WRITE_POS = s.WRITE_POS := by
  unfold drawSensor; split <;> rfl

@[simp] theorem drawSensor_EXIT (s : State) : (drawSensor s).EXIT = s.EXIT := by
  unfold drawSensor; split <;> rfl

@[simp] theorem drawSensor_turns (s : State) : (drawSensor s).ENV.turns = s.ENV.turns := by
  unfold drawSensor; split <;> rfl

/-! ### Consuming a outcome of the initialisation (R124) -/

@[simp] theorem drawInit_AS (s : State) : (drawInit s).AS = s.AS := by
  unfold drawInit; split <;> rfl

@[simp] theorem drawInit_PHASE (s : State) : (drawInit s).PHASE = s.PHASE := by
  unfold drawInit; split <;> rfl

@[simp] theorem drawInit_BUF (s : State) : (drawInit s).BUF = s.BUF := by
  unfold drawInit; split <;> rfl

@[simp] theorem drawInit_BUF_LEN (s : State) : (drawInit s).BUF_LEN = s.BUF_LEN := by
  unfold drawInit; split <;> rfl

@[simp] theorem drawInit_BUF_VALID (s : State) : (drawInit s).BUF_VALID = s.BUF_VALID := by
  unfold drawInit; split <;> rfl

@[simp] theorem drawInit_TLM (s : State) : (drawInit s).TLM = s.TLM := by
  unfold drawInit; split <;> rfl

@[simp] theorem drawInit_ST (s : State) : (drawInit s).ST = s.ST := by
  unfold drawInit; split <;> rfl

@[simp] theorem drawInit_RXQ (s : State) : (drawInit s).RXQ = s.RXQ := by
  unfold drawInit; split <;> rfl

@[simp] theorem drawInit_EP (s : State) : (drawInit s).EP = s.EP := by
  unfold drawInit; split <;> rfl

@[simp] theorem drawInit_OUT (s : State) : (drawInit s).OUT = s.OUT := by
  unfold drawInit; split <;> rfl

@[simp] theorem drawInit_WRITE_POS (s : State) : (drawInit s).WRITE_POS = s.WRITE_POS := by
  unfold drawInit; split <;> rfl

@[simp] theorem drawInit_EXIT (s : State) : (drawInit s).EXIT = s.EXIT := by
  unfold drawInit; split <;> rfl

@[simp] theorem drawInit_turns (s : State) : (drawInit s).ENV.turns = s.ENV.turns := by
  unfold drawInit; split <;> rfl

/-! ### Whose turn it is, and the answers to come, are not touched by taking a turn -/

@[simp] theorem onTurn_writeResult (s : State) (k : Nat) : s.onTurn.writeResult k = s.writeResult k := rfl
@[simp] theorem onTurn_sensorResult (s : State) : s.onTurn.sensorResult = s.sensorResult := rfl
@[simp] theorem onTurn_initOk (s : State) : s.onTurn.initOk = s.initOk := rfl

/-- Where no turn is listed, taking one changes nothing. -/
theorem onTurn_of_turns_nil {s : State} (h : s.ENV.turns = []) : s.onTurn = s := by
  obtain ⟨_, _, _, _, _, _, _, _, _, _, _, _, ⟨_, _, _, _, _⟩⟩ := s
  cases h
  rfl

/-- Where no turn is listed, it is the block's turn. -/
theorem nextTurn_of_turns_nil {s : State} (h : s.ENV.turns = []) : s.nextTurn = .block := by
  simp [State.nextTurn, h]

/-- Consuming a write result moves the numbering of the results to come by one. -/
theorem drawWrite_writeResult (s : State) (k : Nat) :
    (drawWrite s).writeResult k = s.writeResult (k + 1) := by
  unfold drawWrite State.writeResult
  rcases h : s.ENV.writeResults with _ | ⟨r, rs⟩
  · simp [h]; congr 1; omega
  · simp

end Sys2Proof.Machine
end

