-- ==== Sys2Proof/Laws/Ops.lean ====
section
/-! SUPPORT. For each shared operation, once, everything it does (spec/20_memory.md, spec/41_parser.md,
spec/42_driver.md). -/

namespace Sys2Proof.Machine

/-! ### The endpoints and their flags -/

@[simp] theorem WriteFlags.set_set (w : WriteFlags) (e : Endpoint) (a b : Bool) :
    (w.set e a).set e b = w.set e b := by cases e <;> rfl

/-- A flag set is the flag read back; the others keep their values. -/
@[simp] theorem WriteFlags.get_set (w : WriteFlags) (e f : Endpoint) (v : Bool) :
    (w.set e v).get f = if f = e then v else w.get f := by
  cases e <;> cases f <;> rfl

/-- An endpoint takes the value `AS` holds for it; the others keep theirs. -/
@[simp] theorem Endpoints.get_set_valueFor (ep : Endpoints) (a : ActuatorState) (e f : Endpoint) :
    (ep.set e (a.valueFor e)).get f = if f = e then some (a.valueFor e) else ep.get f := by
  cases e <;> cases f <;> rfl

/-- Two sets of endpoints that present the same at every endpoint are the same. -/
theorem Endpoints.ext_get {a b : Endpoints} (h : ∀ e, a.get e = b.get e) : a = b := by
  have h1 := h .dir1
  have h2 := h .dir2
  have h3 := h .relay
  have h4 := h .duty1
  have h5 := h .duty2
  obtain ⟨a1, a2, a3, a4, a5⟩ := a
  obtain ⟨b1, b2, b3, b4, b5⟩ := b
  simp only [Endpoints.get] at h1 h2 h3 h4 h5
  have inj1 : Function.Injective OutValue.level := fun _ _ h => by cases h; rfl
  have inj2 : Function.Injective OutValue.duty := fun _ _ h => by cases h; rfl
  rw [Option.map_injective inj1 h1, Option.map_injective inj1 h2, Option.map_injective inj1 h3,
    Option.map_injective inj2 h4, Option.map_injective inj2 h5]

/-! ### One write (R101, R103) -/

/-- Everything one write does. -/
theorem issueWrite_eq (e : Endpoint) (v : OutValue) (s : State) :
    issueWrite e v s =
      { drawWrite s with
        EP := s.EP.observe ⟨e, v, s.writeResult 0⟩
        OUT := s.OUT ++ [⟨e, v, s.writeResult 0⟩]
        ST := { s.ST with wfail := s.ST.wfail.set e (s.writeResult 0 == .fail) } } := by
  unfold issueWrite
  cases h : s.writeResult 0 <;> simp [raiseError, Status.record]

/-- The write at a place of the sequence carries the field of `AS` of that endpoint (R33, R101). -/
theorem issueFromAS_eq (s : State) : issueFromAS s = issueWrite s.WRITE_POS (s.AS.valueFor s.WRITE_POS) s := by
  unfold issueFromAS
  split <;> rename_i h <;> rw [h] <;> rfl

/-- Everything one step of APPLY does. -/
theorem applyWrite_eq (s : State) :
    applyWrite s =
      { drawWrite s with
        EP := s.EP.observe ⟨s.WRITE_POS, s.AS.valueFor s.WRITE_POS, s.writeResult 0⟩
        OUT := s.OUT ++ [⟨s.WRITE_POS, s.AS.valueFor s.WRITE_POS, s.writeResult 0⟩]
        ST := { s.ST with wfail := s.ST.wfail.set s.WRITE_POS (s.writeResult 0 == .fail) }
        WRITE_POS := s.WRITE_POS.next.getD .dir1
        PHASE := if s.WRITE_POS = .duty2 then .sleep else s.PHASE } := by
  unfold applyWrite
  rw [issueFromAS_eq, issueWrite_eq]
  cases h : s.WRITE_POS <;> simp [Endpoint.next]

/-! ### The frame's meaning -/

/-- Everything the duty fields' flags and errors do (R86). -/
theorem flagDuties_eq (v2 v1 : Option Int) (s : State) :
    flagDuties v2 v1 s = { s with ST := { s.ST with clamp2 := clamped v2, clamp1 := clamped v1 } } := by
  unfold flagDuties
  cases h2 : clamped v2 <;> cases h1 : clamped v1 <;> simp [raiseError, Status.record]

/-- Everything a frame can do: `AS` takes a value, three flags of `ST` may change, and BADFRAME alone empties
the queue (R82, R84, R85). -/
theorem exec_cases {i : Instr} {s : State} {o : Host.Outcome State Fault Refusal} (h : exec i s = o) :
    (∃ a st, o = .next { s with AS := a, ST := st } ∧ i.frameClass ≠ .badframe ∧
      st.wfail = s.ST.wfail ∧ st.sensor_err = s.ST.sensor_err ∧
      ((st.frame = .cmd ∧ st.digit_unrec = s.ST.digit_unrec) ∨ (st.frame = .cmdx ∧ st.digit_unrec = true))) ∨
    (o = .next { s with AS := ALL_OFF, RXQ := [], ST := { s.ST with frame := .badframe } } ∧
      i.frameClass = .badframe) := by
  subst h
  cases i with
  | cmd r q p h2 l2 h1 l1 =>
    refine .inl ⟨{ pwm1 := duty h1 l1, pwm2 := duty h2 l2, pwm1_dir := p, pwm2_dir := q, relay := r },
      { s.ST with frame := .cmd, clamp2 := clamped (hex2 h2 l2), clamp1 := clamped (hex2 h1 l1) },
      ?_, by simp [Instr.frameClass], rfl, rfl, .inl ⟨rfl, rfl⟩⟩
    simp only [exec, execCmd, flagDuties_eq, commit]
  | cmdx d h2 l2 h1 l1 =>
    refine .inl ⟨{ pwm1 := duty h1 l1, pwm2 := duty h2 l2, pwm1_dir := false, pwm2_dir := false, relay := false },
      { s.ST with frame := .cmdx, digit_unrec := true,
                  clamp2 := clamped (hex2 h2 l2), clamp1 := clamped (hex2 h1 l1) },
      ?_, by simp [Instr.frameClass], rfl, rfl, .inr ⟨rfl, rfl⟩⟩
    simp only [exec, execCmdx, flagDuties_eq, commit, raiseError, Status.record]
  | badframe => exact .inr ⟨rfl, rfl⟩

/-! ### PARSE (R80) -/

/-- The seven bytes of a frame at the head of the buffer are what PARSE reads. -/
theorem fetchFrame_of_frameIs {m : Memory} {b0 b1 b2 b3 b4 b5 b6 : Byte} (h : FrameIs m b0 b1 b2 b3 b4 b5 b6) :
    fetchFrame m = [b0, b1, b2, b3, b4, b5, b6] := by
  obtain ⟨rfl, rfl, rfl, rfl, rfl, rfl, rfl⟩ := h
  rfl

/-- PARSE of a buffer that holds a frame runs the frame's instruction, then the two closing lines. -/
theorem parse_of_frame {s : State} {b0 b1 b2 b3 b4 b5 b6 : Byte} (hv : s.BUF_VALID = true)
    (hf : FrameIs s.BUF b0 b1 b2 b3 b4 b5 b6) {t : State}
    (he : exec (decodeFrame b0 b1 b2 b3 b4 b5 b6) s = .next t) : parse s = .next (endParse t) := by
  simp only [parse, hv, fetchFrame_of_frameIs hf, decode_seven, he, if_true]

/-- Everything PARSE can do when it goes on. -/
theorem parse_cases {s t : State} (h : parse s = .next t) :
    ∃ b0 b1 b2 b3 b4 b5 b6 u, s.BUF_VALID = true ∧ FrameIs s.BUF b0 b1 b2 b3 b4 b5 b6 ∧
      exec (decodeFrame b0 b1 b2 b3 b4 b5 b6) s = .next u ∧ t = endParse u := by
  unfold parse at h
  split at h
  · next hv =>
    simp only [fetchFrame, decode_seven] at h
    split at h
    · next u hu =>
      cases h
      exact ⟨_, _, _, _, _, _, _, u, hv, ⟨rfl, rfl, rfl, rfl, rfl, rfl, rfl⟩, hu, rfl⟩
    · cases h
    · cases h
  · cases h

/-! ### POLL (R71) -/

/-- POLL when at least seven bytes wait. -/
theorem poll_enough {s : State} (h : 7 ≤ s.RXQ.length) :
    poll s =
      { s with
        ST := .cleared
        BUF := Memory.writeBytes s.BUF 0 (s.RXQ.take (min s.RXQ.length Config.BUF_CAP))
        RXQ := s.RXQ.drop (min s.RXQ.length Config.BUF_CAP)
        BUF_LEN := min s.RXQ.length Config.BUF_CAP
        BUF_VALID := true
        PHASE := .parse } := by
  simp only [poll, pollWith, serAvail, Config.MIN_POLL, h, if_true, serBytes, serRead]

/-- POLL when fewer than seven bytes wait. -/
theorem poll_short {s : State} (h : s.RXQ.length < 7) :
    poll s = { s with ST := .cleared, BUF_VALID := false, PHASE := .sample } := by
  have h' : ¬ 7 ≤ s.RXQ.length := by omega
  simp only [poll, pollWith, serAvail, Config.MIN_POLL, h', if_false]
  rfl

/-- The bytes POLL takes number between seven and the capacity. -/
theorem poll_count {s : State} (h : 7 ≤ s.RXQ.length) :
    7 ≤ min s.RXQ.length Config.BUF_CAP ∧
      (s.RXQ.take (min s.RXQ.length Config.BUF_CAP)).length = min s.RXQ.length Config.BUF_CAP := by
  simp [Config.BUF_CAP]
  omega

/-! ### SAMPLE (R111) -/

/-- SAMPLE on `Ok`. -/
theorem sample_ok {s : State} {rx ry rz : Raw16} (h : s.sensorResult = .ok rx ry rz) :
    sample s =
      { drawSensor s with
        TLM := { xa := angle rx, ya := angle ry, za := angle rz, err := false }
        ST := { s.ST with sensor_err := false }
        PHASE := .apply
        WRITE_POS := .dir1 } := by
  simp [sample, h]

/-- SAMPLE on `Err`. -/
theorem sample_err {s : State} (h : s.sensorResult = .err) :
    sample s =
      { drawSensor s with
        TLM := { xa := 0, ya := 0, za := 0, err := true }
        ST := { s.ST with sensor_err := true }
        PHASE := .apply
        WRITE_POS := .dir1 } := by
  simp [sample, h, raiseError, Status.record, angle, Config.SENSOR_ERR_SAMPLE]

/-- Everything SAMPLE can do: the telemetry, its flag, the phase, and the environment's record. -/
theorem sample_cases (s : State) :
    ∃ tlm : Telemetry, sample s =
      { drawSensor s with
        TLM := tlm
        ST := { s.ST with sensor_err := tlm.err }
        PHASE := .apply
        WRITE_POS := .dir1 } := by
  cases h : s.sensorResult with
  | ok rx ry rz => exact ⟨_, sample_ok h⟩
  | err => exact ⟨_, sample_err h⟩

/-! ### INIT (R124) -/

/-- Everything INIT can do. -/
theorem initialise_cases (s : State) :
    (s.initOk = true ∧ initialise s = { drawInit s with PHASE := .poll }) ∨
    (s.initOk = false ∧
      initialise s = { drawInit s with PHASE := .halt, EXIT := some Config.INIT_EXIT_STATUS }) := by
  unfold initialise
  cases h : s.initOk
  · exact .inr ⟨rfl, by simp [raiseError, Status.record]⟩
  · exact .inl ⟨rfl, by simp⟩

/-! ### Termination inside an operation (R125) -/

/-- The frame in the buffer takes the fail-safe path exactly when there is one and its envelope is bad. -/
theorem holdsBadframe_iff (s : State) :
    holdsBadframe s = true ↔
      s.BUF_VALID = true ∧ ¬ (Memory.read s.BUF 0 = Config.HDR ∧ Memory.read s.BUF 6 = Config.FTR) := by
  unfold holdsBadframe
  simp only [fetchFrame, decode_seven, decodeFrame]
  by_cases he : Memory.read s.BUF 0 = Config.HDR ∧ Memory.read s.BUF 6 = Config.FTR
  · rw [if_pos he]
    by_cases hd : (digit (Memory.read s.BUF 1)).recognised = true
    · rw [if_pos hd]; simp [he]
    · rw [if_neg hd]; simp [he]
  · rw [if_neg he]; simp [he]

/-- Everything termination inside an operation can do: the block halts, a POLL has cleared `ST`, and a
BADFRAME has emptied the queue. -/
theorem terminateInside_cases (s : State) :
    terminateInside s = { s with PHASE := .halt } ∨
    (s.PHASE = .poll ∧ terminateInside s = { s with PHASE := .halt, ST := .cleared }) ∨
    (s.PHASE = .parse ∧ holdsBadframe s = true ∧ terminateInside s = { s with PHASE := .halt, RXQ := [] }) := by
  unfold terminateInside
  split
  · next h => exact .inr (.inl ⟨h, rfl⟩)
  · next h =>
    split
    · next hb => exact .inr (.inr ⟨h, hb, rfl⟩)
    · exact .inl rfl
  all_goals exact .inl rfl

end Sys2Proof.Machine
end

