-- ==== Sys2Proof/Laws/PerInstr.lean ====
section
/-! SUPPORT. Statements about every instruction as syntax, one lemma per constructor (LAWS.json). -/

namespace Sys2Proof.Laws.FrameLength

/-- Every instruction is one frame of `FRAME_LEN` bytes (R50, R60). -/
def Statement (i : Instr) : Prop := (encode i).length = Config.FRAME_LEN

theorem cmd (relay pwm2_dir pwm1_dir : Bool) (h2 l2 h1 l1 : Byte) :
    Statement (.cmd relay pwm2_dir pwm1_dir h2 l2 h1 l1) := rfl

theorem cmdx (d h2 l2 h1 l1 : Byte) : Statement (.cmdx d h2 l2 h1 l1) := rfl

theorem badframe (b0 b1 b2 b3 b4 b5 b6 : Byte) : Statement (.badframe b0 b1 b2 b3 b4 b5 b6) := rfl

end Sys2Proof.Laws.FrameLength
end

