-- ==== Sys2Proof/Laws/Step.lean ====
section
/-! SUPPORT. What one step can do, said once, and the laws of runs. -/

namespace Sys2Proof.Machine

/-- On the block's turn a step is the operation its phase selects. -/
theorem step_block {s : State} (h : s.nextTurn = .block) : step s = blockStep s.onTurn := by
  simp only [step, h]

/-- Everything the block can do in one step, phase by phase. -/
theorem blockStep_cases {s t : State} (h : blockStep s = .next t) :
    (s.PHASE = .init ∧ t = initialise s) ∨ (s.PHASE = .poll ∧ t = poll s) ∨
    (s.PHASE = .parse ∧ parse s = .next t) ∨ (s.PHASE = .sample ∧ t = sample s) ∨
    (s.PHASE = .apply ∧ t = applyWrite s) ∨ (s.PHASE = .sleep ∧ t = sleep s) ∨
    (s.PHASE = .halt ∧ t = s) := by
  unfold blockStep at h
  split at h <;> rename_i hp <;> simp_all

/-- Everything one step can do, by the agent whose turn it is. -/
theorem step_cases {s t : State} (h : step s = .next t) :
    (s.nextTurn = .block ∧ blockStep s.onTurn = .next t) ∨
    (∃ bytes, s.nextTurn = .sender bytes ∧ t = serArrive bytes s.onTurn) ∨
    (s.nextTurn = .supervisor ∧ t = terminate s.onTurn) ∨
    (s.nextTurn = .supervisorInside ∧ t = terminateInside s.onTurn) := by
  unfold step at h
  split at h <;> rename_i hp <;> simp_all

/-- A run of no steps. -/
@[simp] theorem steps_zero (s : State) : steps 0 s = .next s := rfl

/-- A run that begins with a step that goes on. -/
theorem steps_succ {s t : State} (n : Nat) (h : step s = .next t) : steps (n + 1) s = steps n t := by
  simp only [steps, h]

/-- Runs compose. -/
theorem steps_add {s t : State} (m n : Nat) (h : steps m s = .next t) : steps (m + n) s = steps n t := by
  induction m generalizing s with
  | zero => cases h; rw [Nat.zero_add]
  | succ m ih =>
    simp only [steps] at h
    split at h
    · next u hu =>
      rw [show m + 1 + n = (m + n) + 1 by omega, steps_succ _ hu]
      exact ih h
    · cases h
    · cases h

/-- A run is the host's run of the core. -/
theorem steps_eq_run (n : Nat) (s : State) : steps n s = Host.Core.run core n s := by
  induction n generalizing s with
  | zero => rfl
  | succ n ih =>
    show (match step s with
      | .next t => steps n t
      | .fault r => .fault r
      | .refused r => .refused r) = _
    cases h : step s with
    | next t => simp only [ih, Host.Core.run]; rw [show core.step s = .next t from h]
    | fault r => simp only [Host.Core.run]; rw [show core.step s = .fault r from h]; rfl
    | refused r => simp only [Host.Core.run]; rw [show core.step s = .refused r from h]; rfl

/-- A property that every step keeps holds after every run. -/
theorem steps_keep {P : State → Prop} (keep : ∀ s t, P s → step s = .next t → P t) {n : Nat} {s t : State}
    (hs : P s) (h : steps n s = .next t) : P t := by
  induction n generalizing s with
  | zero => cases h; exact hs
  | succ n ih =>
    simp only [steps] at h
    split at h
    · next u hu => exact ih (keep s u hs hu) h
    · cases h
    · cases h

end Sys2Proof.Machine
end

