-- ==== Sys2Proof/Laws/Run.lean ====
section
/-! SUPPORT. Runs in which the sender's turns lie between the block's moves: how turns are counted, and that outside
POLL and PARSE an arrival only lengthens the queue. -/

namespace Sys2Proof.Machine

/-! ### Counting turns -/

/-- Moves of the block add up. -/
theorem State.blockMoves_add (s u : State) (a b : Nat) (h : u.ENV.turns = s.ENV.turns.drop a) :
    s.blockMoves (a + b) = s.blockMoves a + u.blockMoves b := by
  have h1 : (s.ENV.turns.take a).countP Turn.isSender ≤ a :=
    Nat.le_trans List.countP_le_length (by simp)
  have h2 : (u.ENV.turns.take b).countP Turn.isSender ≤ b :=
    Nat.le_trans List.countP_le_length (by simp)
  simp only [State.blockMoves, h, List.take_add, List.countP_append] at h2 ⊢
  omega

/-- Arrivals add up. -/
theorem State.arrived_add (s u : State) (a b : Nat) (h : u.ENV.turns = s.ENV.turns.drop a) :
    s.arrived 0 (a + b) = s.arrived 0 a ++ u.arrived 0 b := by
  simp only [State.arrived, h, List.take_add, List.drop_zero, List.flatMap_append]

/-- Arrivals between two turns, seen from the first of them. -/
theorem State.arrived_drop (s u : State) (a b : Nat) (h : u.ENV.turns = s.ENV.turns.drop a) :
    s.arrived a (a + b) = u.arrived 0 b := by
  simp only [State.arrived, h, List.drop_zero]
  rw [List.drop_take, Nat.add_sub_cancel_left]

/-- A turn of the block is one move and brings no bytes. -/
theorem State.one_block {s : State} (h : s.nextTurn = .block) : s.blockMoves 1 = 1 ∧ s.arrived 0 1 = [] := by
  unfold State.nextTurn at h
  cases ht : s.ENV.turns with
  | nil => simp [State.blockMoves, State.arrived, ht]
  | cons u us =>
    rw [ht] at h
    cases (h : u = .block)
    simp [State.blockMoves, State.arrived, ht, Turn.isSender, Turn.bytes]

/-- A turn of the sender is no move and brings its bytes. -/
theorem State.one_sender {s : State} {bytes : List Byte} (h : s.nextTurn = .sender bytes) :
    s.blockMoves 1 = 0 ∧ s.arrived 0 1 = bytes := by
  unfold State.nextTurn at h
  cases ht : s.ENV.turns with
  | nil => rw [ht] at h; cases h
  | cons u us =>
    rw [ht] at h
    cases (h : u = .sender bytes)
    simp [State.blockMoves, State.arrived, ht, Turn.isSender, Turn.bytes]

/-- The turn at `a` is the next one once `a` turns are taken. -/
theorem State.turnAt_drop (s u : State) (a : Nat) (h : u.ENV.turns = s.ENV.turns.drop a) :
    u.nextTurn = s.turnAt a := by
  simp only [State.nextTurn, State.turnAt, h, List.headD_eq_head?_getD, List.head?_drop]

/-- Where nothing terminates, the next turn is the block's or the sender's. -/
theorem State.Undisturbed.nextTurn {s : State} (h : s.Undisturbed) :
    s.nextTurn = .block ∨ ∃ bytes, s.nextTurn = .sender bytes := by
  unfold State.nextTurn
  cases ht : s.ENV.turns with
  | nil => exact .inl rfl
  | cons u us => exact h u (by rw [ht]; exact List.mem_cons_self)

/-- More turns are no fewer moves. -/
theorem State.blockMoves_mono (s : State) (a b : Nat) : s.blockMoves a ≤ s.blockMoves (a + b) := by
  rw [State.blockMoves_add s { s with ENV := { s.ENV with turns := s.ENV.turns.drop a } } a b rfl]
  exact Nat.le_add_right _ _

/-- After the turn of move `m`, one move more is made. -/
theorem State.BlockMove.succ {s : State} {m i : Nat} (h : s.BlockMove m i) : s.blockMoves (i + 1) = m + 1 := by
  have hb : ({ s with ENV := { s.ENV with turns := s.ENV.turns.drop i } } : State).nextTurn = .block := by
    rw [← h.1]; exact State.turnAt_drop s _ i rfl
  rw [State.blockMoves_add s { s with ENV := { s.ENV with turns := s.ENV.turns.drop i } } i 1 rfl, h.2,
    (State.one_block hb).1]

/-- Where nothing terminates the block does move. -/
theorem State.Undisturbed.exists_blockMove_zero {s : State} (h : s.Undisturbed) : ∃ i, s.BlockMove 0 i := by
  generalize hl : s.ENV.turns = ts
  induction ts generalizing s with
  | nil => exact ⟨0, by simp [State.BlockMove, State.turnAt, State.blockMoves, hl]⟩
  | cons u us ih =>
    rcases h u (by rw [hl]; exact List.mem_cons_self) with rfl | ⟨bytes, rfl⟩
    · exact ⟨0, by simp [State.BlockMove, State.turnAt, State.blockMoves, hl]⟩
    · obtain ⟨i, h1, h2⟩ := ih (s := { s with ENV := { s.ENV with turns := us } })
        (fun u hu => h u (by rw [hl]; exact List.mem_cons_of_mem _ hu)) rfl
      refine ⟨i + 1, ?_, ?_⟩
      · simpa [State.turnAt, hl] using h1
      · rw [Nat.add_comm, State.blockMoves_add s { s with ENV := { s.ENV with turns := us } } 1 i (by simp [hl]), h2,
          (State.one_sender (s := s) (bytes := bytes) (by simp [State.nextTurn, hl])).1]

/-! ### Arrivals outside POLL and PARSE -/

/-- A state with bytes behind its queue and turns to come. -/
def State.lift (c : State) (q : List Byte) (ts : List Turn) : State :=
  { c with RXQ := c.RXQ ++ q, ENV := { c.ENV with turns := ts } }

/-- Taking a turn of a lifted state. -/
theorem State.onTurn_lift (c : State) (q : List Byte) (ts : List Turn) :
    (c.lift q ts).onTurn = c.lift q ts.tail := rfl

/-- An operation other than POLL and PARSE does the same whatever waits in the queue and whatever is to come. -/
theorem blockStep_lift {c : State} (h1 : c.PHASE ≠ .poll) (h2 : c.PHASE ≠ .parse) (q : List Byte) (ts : List Turn) :
    ∃ d, blockStep c = .next d ∧ d.ENV.turns = c.ENV.turns ∧
      blockStep (c.lift q ts) = .next (d.lift q ts) := by
  have hp : (c.lift q ts).PHASE = c.PHASE := rfl
  unfold blockStep
  rw [hp]
  cases h : c.PHASE with
  | poll => exact absurd h h1
  | parse => exact absurd h h2
  | init =>
    refine ⟨_, rfl, ?_, ?_⟩
    · rcases initialise_cases c with ⟨_, e⟩ | ⟨_, e⟩ <;> rw [e] <;> simp
    · have ho : (c.lift q ts).initOk = c.initOk := rfl
      have hd : drawInit (c.lift q ts) = (drawInit c).lift q ts := by
        simp only [drawInit, State.lift]; split <;> rfl
      simp only [initialise, ho, hd]
      split <;> rfl
  | sample =>
    refine ⟨_, rfl, ?_, ?_⟩
    · obtain ⟨tlm, e⟩ := sample_cases c
      rw [e]; simp
    · have ho : (c.lift q ts).sensorResult = c.sensorResult := rfl
      have hd : drawSensor (c.lift q ts) = (drawSensor c).lift q ts := by
        simp only [drawSensor, State.lift]; split <;> rfl
      simp only [sample, ho, hd]
      split <;> rfl
  | apply =>
    refine ⟨_, rfl, by rw [applyWrite_eq]; simp, ?_⟩
    have hd : drawWrite (c.lift q ts) = (drawWrite c).lift q ts := by
      simp only [drawWrite, State.lift]; split <;> rfl
    simp only [applyWrite_eq, hd]
    rfl
  | sleep => exact ⟨_, rfl, rfl, rfl⟩
  | halt => exact ⟨_, rfl, rfl, rfl⟩

/-- A run outside POLL and PARSE: what the block's moves alone would leave, with what arrived behind the queue. -/
theorem steps_lift (n : Nat) {c : State} (q : List Byte) (ts : List Turn) (hc : c.ENV.turns = [])
    (hu : (c.lift q ts).Undisturbed)
    (hp : ∀ k d, k < (c.lift q ts).blockMoves n → steps k c = .next d → d.PHASE ≠ .poll ∧ d.PHASE ≠ .parse) :
    ∃ d, steps ((c.lift q ts).blockMoves n) c = .next d ∧ d.ENV.turns = [] ∧
      steps n (c.lift q ts) = .next (d.lift (q ++ (c.lift q ts).arrived 0 n) (ts.drop n)) := by
  induction n generalizing c q ts with
  | zero => exact ⟨c, by simp [State.blockMoves], hc, by simp [State.arrived]⟩
  | succ n ih =>
    rcases hu.nextTurn with ht | ⟨bytes, ht⟩
    · have h1 := State.one_block ht
      have hm : (c.lift q ts).blockMoves (n + 1) = (c.lift q ts.tail).blockMoves n + 1 := by
        rw [Nat.add_comm n 1, State.blockMoves_add _ (c.lift q ts.tail) 1 n (by simp [State.lift]), h1.1, Nat.add_comm]
      have ha : (c.lift q ts).arrived 0 (n + 1) = (c.lift q ts.tail).arrived 0 n := by
        rw [Nat.add_comm n 1, State.arrived_add _ (c.lift q ts.tail) 1 n (by simp [State.lift]), h1.2]; rfl
      obtain ⟨hq1, hq2⟩ := hp 0 c (by omega) rfl
      obtain ⟨d, hd, hdt, hl⟩ := blockStep_lift hq1 hq2 q ts.tail
      have hs : step (c.lift q ts) = .next (d.lift q ts.tail) := by
        rw [step_block ht, State.onTurn_lift, hl]
      have hsc : step c = .next d := by
        rw [step_block (nextTurn_of_turns_nil hc), onTurn_of_turns_nil hc, hd]
      have hmd : (d.lift q ts.tail).blockMoves n = (c.lift q ts.tail).blockMoves n := rfl
      obtain ⟨e, he, het, hel⟩ := ih q ts.tail (hdt.trans hc)
        (fun u hu' => hu u (List.mem_of_mem_tail hu'))
        (fun k f hk hf => hp (k + 1) f (by omega) (by rw [steps_succ _ hsc, hf]))
      refine ⟨e, by rw [hm, steps_succ _ hsc, ← hmd, he], het, ?_⟩
      rw [steps_succ _ hs, hel, ha]
      simp [State.arrived, State.lift]
    · have h1 := State.one_sender ht
      have hs : step (c.lift q ts) = .next (c.lift (q ++ bytes) ts.tail) := by
        simp only [step, ht, serArrive, State.onTurn_lift]
        simp [State.lift]
      have hm : (c.lift q ts).blockMoves (n + 1) = (c.lift (q ++ bytes) ts.tail).blockMoves n := by
        rw [Nat.add_comm n 1, State.blockMoves_add _ (c.lift (q ++ bytes) ts.tail) 1 n (by simp [State.lift]), h1.1,
          Nat.zero_add]
      have ha : (c.lift q ts).arrived 0 (n + 1) = bytes ++ (c.lift (q ++ bytes) ts.tail).arrived 0 n := by
        rw [Nat.add_comm n 1, State.arrived_add _ (c.lift (q ++ bytes) ts.tail) 1 n (by simp [State.lift]), h1.2]
      obtain ⟨e, he, het, hel⟩ := ih (q ++ bytes) ts.tail hc
        (fun u hu' => hu u (List.mem_of_mem_tail hu')) (fun k f hk hf => hp k f (by omega) hf)
      refine ⟨e, by rw [hm, he], het, ?_⟩
      rw [steps_succ _ hs, hel, ha]
      simp [State.lift]

/-- A run of the sender's turns alone. -/
theorem steps_senders {n : Nat} {s : State} (hu : s.Undisturbed) (h : s.blockMoves n = 0) :
    steps n s = .next (s.lift (s.arrived 0 n) (s.ENV.turns.drop n)) := by
  have hl : ({ s with ENV := { s.ENV with turns := [] } } : State).lift [] s.ENV.turns = s := by
    simp [State.lift]
  obtain ⟨d, hd, _, hr⟩ := steps_lift n (c := { s with ENV := { s.ENV with turns := [] } }) [] s.ENV.turns rfl
    (by rw [hl]; exact hu) (fun k d hk _ => absurd hk (by rw [hl, h]; exact Nat.not_lt_zero k))
  rw [hl] at hd hr
  rw [h] at hd
  cases hd
  rw [hr]
  rfl

/-- The run up to and with the block's next move: the sender's turns before it only lengthen the queue. -/
theorem steps_to_move {s : State} {i : Nat} (hu : s.Undisturbed) (h : s.BlockMove 0 i) :
    (s.lift (s.arrived 0 i) (s.ENV.turns.drop i)).nextTurn = .block ∧
      steps (i + 1) s = step (s.lift (s.arrived 0 i) (s.ENV.turns.drop i)) := by
  refine ⟨by rw [← h.1]; exact State.turnAt_drop s _ i rfl, ?_⟩
  rw [steps_add i 1 (steps_senders hu h.2)]
  simp only [steps]
  cases step (s.lift (s.arrived 0 i) (s.ENV.turns.drop i)) <;> rfl

end Sys2Proof.Machine
end

