-- ==== Sys2Proof/Tests/Slice0.lean ====
section
/-! SUPPORT. Tests: expected values from spec/95_test_vectors.md and the rules it cites, and for every statement
with hypotheses a state and operands that meet them all together (`test_witness_…`, named after the statement). -/

namespace Sys2Proof.Tests

open Sys2Proof Sys2Proof.Machine

/-! ### Helpers -/

/-- What a state shows, where the outcome is a next state. -/
def seen {α : Type} (o : Host.Outcome State Fault Refusal) (f : State → α) : Option α :=
  match o with
  | .next s => some (f s)
  | .fault _ => none
  | .refused _ => none

/-- A small state in a phase: the queue empty, the sensor at `Ok(256, -128, 0)`, all writes accepted. -/
def base (p : Phase) : State :=
  { State.reset with
    PHASE := p
    RXQ := []
    ENV := { State.reset.ENV with
             initResults := [true]
             sensorResults := [.ok 256#16 0xFF80#16 0#16]
             writeResults := [.ok, .ok, .ok, .ok, .ok] } }

/-- The command of Scenario B (95_test_vectors.md S-B). -/
def scenarioB : ActuatorState :=
  { pwm1 := 16#8, pwm2 := 144#8, pwm1_dir := true, pwm2_dir := true, relay := true }

/-- `&7FFFF@`, waiting in the queue of the BADFRAME vectors (95_test_vectors.md 2.6). -/
def waiting : List Byte := [0x26#8, 0x37#8, 0x46#8, 0x46#8, 0x46#8, 0x46#8, 0x40#8]

/-- `XXXXXXX` (95_test_vectors.md S-C). -/
def noise : List Byte := [0x58#8, 0x58#8, 0x58#8, 0x58#8, 0x58#8, 0x58#8, 0x58#8]

/-- A state about to parse seven bytes, Scenario B in force and a frame waiting. -/
def parsing (bytes : List Byte) : State :=
  { base .parse with
    AS := scenarioB
    RXQ := waiting
    BUF := Memory.writeBytes [] 0 bytes
    BUF_LEN := 7
    BUF_VALID := true }

/-- A state about to poll these bytes. -/
def polling (bytes : List Byte) : State := { base .poll with RXQ := bytes }

/-- A state with a given turn next. -/
def withTurn (u : Turn) (s : State) : State := { s with ENV := { s.ENV with turns := [u] } }

/-- A state about to write, with the endpoints of 95_test_vectors.md 2.8 and these results to come. -/
def applying (results : List WriteResult) : State :=
  { base .apply with
    EP := { dir1 := some false, dir2 := some false, relay := some true, duty1 := some 100#8, duty2 := some 100#8 }
    ENV := { (base .apply).ENV with writeResults := results } }

/-- A state whose sender acts before, between and after the block's first two moves. -/
def busyFrom (s : State) : State :=
  { s with ENV := { s.ENV with turns := [.sender [1#8], .block, .sender [2#8], .block, .sender [3#8]] } }

/-- Noise and a frame behind it in the queue, at P_POLL, with a sender that acts meanwhile. -/
def busy : State := busyFrom (polling (noise ++ waiting))

theorem busyFrom_undisturbed (s : State) : (busyFrom s).Undisturbed := by
  intro u hu
  simp only [busyFrom, List.mem_cons, List.not_mem_nil, or_false] at hu
  rcases hu with rfl | rfl | rfl | rfl | rfl
  all_goals first | exact .inl rfl | exact .inr ⟨_, rfl⟩

theorem busy_undisturbed : busy.Undisturbed := busyFrom_undisturbed _

theorem quiet_undisturbed (s : State) (h : s.ENV.turns = []) : s.Undisturbed := by
  intro u hu; rw [h] at hu; cases hu

/-! ### WellFormed (R57) -/

theorem test_wf_cmd : (Instr.cmd true false true 0x47#8 0#8 0xFF#8 0x40#8).wfError = none := by decide
theorem test_wf_refuses_cmdx_digit :
    (Instr.cmdx 0x34#8 0x46#8 0x46#8 0x30#8 0x30#8).wfError = some .digitIsRecognised := by decide
theorem test_wf_refuses_badframe_envelope :
    (Instr.badframe 0x26#8 0x34#8 0x46#8 0x46#8 0x30#8 0x30#8 0x40#8).wfError = some .envelopeHolds := by decide

/-! ### Decoding, the words written out from spec/30_encoding.md (R50, R57, R59) -/

/-- `00100110 00110rqp` with r, q, p = 1, 1, 0, then `A5`, `5A`, then `@`. -/
theorem test_decode_cmd :
    decodeTableWord 56 0b00100110_00110110_01000001_00110101_00110101_01000001_01000000
      = some (.cmd true true false 0x41#8 0x35#8 0x35#8 0x41#8) := by decide
/-- Digit byte 0x38, the first above `7`. -/
theorem test_decode_cmdx :
    decodeTableWord 56 0b00100110_00111000_01000110_01000110_00110001_00110010_01000000
      = some (.cmdx 0x38#8 0x46#8 0x46#8 0x31#8 0x32#8) := by decide
/-- Digit byte 0x2F, the last below `0`. -/
theorem test_decode_cmdx_below :
    decodeTableWord 56 0b00100110_00101111_01000110_01000110_00110001_00110010_01000000
      = some (.cmdx 0x2F#8 0x46#8 0x46#8 0x31#8 0x32#8) := by decide
/-- Markers swapped: `@4FF00&`. -/
theorem test_decode_badframe :
    decodeTableWord 56 0b01000000_00110100_01000110_01000110_00110000_00110000_00100110
      = some (.badframe 0x40#8 0x34#8 0x46#8 0x46#8 0x30#8 0x30#8 0x26#8) := by decide
/-- A header with the top bit set is no header (2.6). -/
theorem test_decode_badframe_high_bit :
    decodeTableWord 56 0b10100110_00110100_01000110_01000110_00110000_00110000_01000000
      = some (.badframe 0xA6#8 0x34#8 0x46#8 0x46#8 0x30#8 0x30#8 0x40#8) := by decide
/-- Six bytes are no frame (R50). -/
theorem test_decode_short :
    decode [0x26#8, 0x34#8, 0x46#8, 0x46#8, 0x30#8, 0x30#8] = .rejected .shortFrame := by decide
/-- The table of R59 on the three words of 2.13. -/
theorem test_classify :
    classify 0x26344646303040#56 = some .cmd ∧ classify 0x26384646464640#56 = some .cmdx ∧
    classify 0x58585858585858#56 = some .badframe := by decide
theorem test_decode_fetch_word :
    seen (step (State.reset.withFetchWord 56 0x26344646303040)) (fun s => (s.AS, s.PHASE))
      = some ({ pwm1 := 0#8, pwm2 := 255#8, pwm1_dir := false, pwm2_dir := false, relay := true }, .sample) := by
  decide

/-! ### Operands (2.1 to 2.3, 2.9, 2.13) -/

theorem test_hexval :
    [0x2F#8, 0x30#8, 0x39#8, 0x3A#8, 0x40#8, 0x41#8, 0x46#8, 0x47#8, 0x60#8, 0x61#8, 0x66#8, 0x67#8, 0xB4#8].map hexval
      = [none, some 0, some 9, none, none, some 10, some 15, none, none, some 10, some 15, none, none] := by decide
theorem test_hex2 :
    hex2 0x31#8 0x30#8 = some 16 ∧ hex2 0x39#8 0x30#8 = some 144 ∧ hex2 0x66#8 0x46#8 = some 255 ∧
    hex2 0x46#8 0x20#8 = none ∧ hex2 0x2D#8 0x31#8 = none := by decide
theorem test_clamp0 :
    [some 0, some 128, some 255, some 256, some 257, some 511, some (-1), some (-256), none].map clamp0
      = [0#8, 128#8, 255#8, 0#8, 0#8, 0#8, 0#8, 0#8, 0#8] := by decide
theorem test_digit :
    digit 0x34#8 = ⟨true, true, false, false⟩ ∧ digit 0x31#8 = ⟨true, false, false, true⟩ ∧
    digit 0x07#8 = ⟨false, false, false, false⟩ ∧ digit 0xB7#8 = ⟨false, false, false, false⟩ := by decide
theorem test_angle :
    [1#16, -1#16, 256#16, 32767#16, 0x8000#16].map angle = [45, -45, 11520, 1474515, -1474560] := by decide
theorem test_enc :
    enc { pwm1 := 90#8, pwm2 := 165#8, pwm1_dir := false, pwm2_dir := true, relay := true }
      = [0x26#8, 0x36#8, 0x41#8, 0x35#8, 0x35#8, 0x41#8, 0x40#8] := by decide
theorem test_pseudo_frames :
    STOP = [0x26#8, 0x30#8, 0x30#8, 0x30#8, 0x30#8, 0x30#8, 0x40#8] ∧
    RELAY_ONLY = [0x26#8, 0x34#8, 0x30#8, 0x30#8, 0x30#8, 0x30#8, 0x40#8] := by decide
theorem test_cycle_label :
    Status.cleared.cycleLabel = .idle ∧
    ({ Status.cleared with frame := .badframe } : Status).cycleLabel = .commanded := by decide
theorem test_error_codes :
    [ErrorClass.framing, .field .pwm1, .digit, .sensor, .write .relay, .init].map (fun e => (e.code, e.fatal))
      = [(1, false), (2, false), (3, false), (4, false), (5, false), (6, true)] := by decide

/-! ### The three instructions (2.4 to 2.6), at most two each -/

/-- `&3G5A0@`: the bad duty of channel 2 is 0, channel 1 keeps its own; nothing is flushed. -/
theorem test_cmd_clamps_one_field :
    seen (step (parsing [0x26#8, 0x33#8, 0x47#8, 0x35#8, 0x41#8, 0x30#8, 0x40#8]))
        (fun s => (s.AS, s.ST, s.RXQ))
      = some ({ pwm1 := 160#8, pwm2 := 0#8, pwm1_dir := true, pwm2_dir := true, relay := false },
              { Status.cleared with frame := .cmd, clamp2 := true }, waiting) := by decide
/-- `&5807F@`: high digit first, wire order channel 2 then channel 1. -/
theorem test_cmd_fields :
    seen (step (parsing [0x26#8, 0x35#8, 0x38#8, 0x30#8, 0x37#8, 0x46#8, 0x40#8])) State.AS
      = some { pwm1 := 127#8, pwm2 := 128#8, pwm1_dir := true, pwm2_dir := false, relay := true } := by decide
/-- `&8GG10@`, from all three bools on. -/
theorem test_cmdx_clears_bools :
    seen (step (parsing [0x26#8, 0x38#8, 0x47#8, 0x47#8, 0x31#8, 0x30#8, 0x40#8]))
        (fun s => (s.AS, s.ST, s.RXQ))
      = some ({ pwm1 := 16#8, pwm2 := 0#8, pwm1_dir := false, pwm2_dir := false, relay := false },
              { Status.cleared with frame := .cmdx, digit_unrec := true, clamp2 := true }, waiting) := by decide
/-- `&4FF00#`: the fail-safe path goes on to SAMPLE. -/
theorem test_badframe_flushes :
    seen (step (parsing [0x26#8, 0x34#8, 0x46#8, 0x46#8, 0x30#8, 0x30#8, 0x23#8]))
        (fun s => (s.AS, s.ST, s.RXQ, s.BUF_VALID, s.PHASE))
      = some (ALL_OFF, { Status.cleared with frame := .badframe }, [], false, .sample) := by decide

/-- A frame that differs from a good one in its footer alone is not accepted. -/
theorem test_witness_EnvelopeDecidesAcceptance : ¬ (0x26#8 = 0x26#8 ∧ 0x23#8 = 0x40#8) := by decide

/-! ### The other operations (2.7 to 2.10) -/

/-- 17 bytes waiting, capacity 16: 16 are read, one is left. -/
theorem test_poll_capacity :
    (let s := pollWith 16 (polling (List.replicate 16 0x58#8 ++ [0x26#8]))
     (s.BUF_LEN, s.BUF_VALID, s.RXQ, s.BUF.length, s.PHASE)) = (16, true, [0x26#8], 16, .parse) := by decide
/-- Six bytes waiting: nothing is read. -/
theorem test_poll_short :
    seen (step (polling (List.replicate 6 0x58#8))) (fun s => (s.BUF_VALID, s.RXQ.length, s.PHASE))
      = some (false, 6, .sample) := by decide
theorem test_sample_ok :
    seen (step (base .sample)) (fun s => (s.TLM, s.PHASE))
      = some ({ xa := 11520, ya := -5760, za := 0, err := false }, .apply) := by decide
/-- The third write rejected: the relay keeps its value, the sequence goes on. -/
theorem test_apply_rejected_relay :
    seen (steps 5 (applying [.ok, .ok, .fail, .ok, .ok]))
        (fun s => (s.EP, s.ST.wfail, s.OUT.map (fun w => (w.endpoint, w.result)), s.PHASE))
      = some ({ dir1 := some false, dir2 := some false, relay := some true, duty1 := some 0#8, duty2 := some 0#8 },
              { WriteFlags.clear with relay := true },
              [(.dir1, .ok), (.dir2, .ok), (.relay, .fail), (.duty1, .ok), (.duty2, .ok)], .sleep) := by decide
/-- Bytes that arrive between POLL and PARSE are flushed by a BADFRAME, those after it are kept (R83). -/
theorem test_flush_keeps_later_arrivals :
    seen (steps 2 (withTurn .block (parsing noise))) (fun s => s.RXQ) = some [] ∧
    seen (steps 2 { parsing noise with ENV := { (parsing noise).ENV with turns := [.block, .sender [3#8]] } })
      (fun s => s.RXQ) = some [3#8] := by decide
theorem test_init_failure_halts :
    seen (step { base .init with ENV := { (base .init).ENV with initResults := [false] } })
        (fun s => (s.PHASE, s.OUT)) = some (.halt, []) := by decide

/-! ### Witnesses: the encoding statements -/

theorem test_witness_DecodeOfEncodeIsInstruction :
    (Instr.cmdx 0x2F#8 0#8 0#8 0#8 0#8).WellFormed ∧ (Instr.cmdx 0x38#8 0#8 0#8 0#8 0#8).WellFormed ∧
    (Instr.cmd true true true 0#8 0#8 0#8 0#8).WellFormed ∧
    (Instr.badframe 0x26#8 0#8 0#8 0#8 0#8 0#8 0x41#8).WellFormed ∧
    (Instr.badframe 0x27#8 0#8 0#8 0#8 0#8 0#8 0x40#8).WellFormed := by decide
theorem test_witness_EncodeOfDecodeIsBytes :
    decode [0x26#8, 0x37#8, 0x39#8, 0x30#8, 0x31#8, 0x30#8, 0x40#8, 0x26#8]
      = .ok (.cmd true true true 0x39#8 0x30#8 0x31#8 0x30#8) [0x26#8] := by decide
theorem test_witness_DigitFollowsTable :
    (0x30#8 ≤ 0x30#8 ∧ 0x30#8 ≤ 0x37#8) ∧ (0x30#8 ≤ 0x37#8 ∧ 0x37#8 ≤ 0x37#8) ∧
    ¬ (0x30#8 ≤ 0x2F#8 ∧ 0x2F#8 ≤ 0x37#8) ∧ ¬ (0x30#8 ≤ 0x38#8 ∧ 0x38#8 ≤ 0x37#8) := by decide
/-- A byte in each range, and one in none; no byte is in two. -/
theorem test_witness_HexvalFollowsAlphabet :
    (0x30#8 ≤ 0x39#8 ∧ 0x39#8 ≤ 0x39#8) ∧ (0x41#8 ≤ 0x46#8 ∧ 0x46#8 ≤ 0x46#8) ∧
    (0x61#8 ≤ 0x66#8 ∧ 0x66#8 ≤ 0x66#8) ∧
    (¬ (0x30#8 ≤ 0x40#8 ∧ 0x40#8 ≤ 0x39#8) ∧ ¬ (0x41#8 ≤ 0x40#8 ∧ 0x40#8 ≤ 0x46#8) ∧
      ¬ (0x61#8 ≤ 0x40#8 ∧ 0x40#8 ≤ 0x66#8)) := by decide
theorem test_witness_ClampNeverWrapsOrSaturates :
    ((0 : Int) ≤ 0 ∧ (0 : Int) ≤ 255) ∧ ((0 : Int) ≤ 255 ∧ (255 : Int) ≤ 255) ∧
    ((-1 : Int) < 0 ∨ (255 : Int) < -1) ∧ ((256 : Int) < 0 ∨ (255 : Int) < 256) := by decide
theorem test_witness_DutyFieldDecodes :
    (hexval 0x66#8 = some 15 ∧ hexval 0x30#8 = some 0) ∧ (hexval 0x46#8 = some 15 ∧ hexval 0x47#8 = none) := by
  decide

/-! ### Witnesses: the instructions and PARSE -/

theorem test_witness_InstructionFrame :
    ∃ a b c : State, exec (.cmd true true true 0x46#8 0x46#8 0x46#8 0x46#8) (base .parse) = .next a ∧
      exec (.cmdx 0x38#8 0x46#8 0x46#8 0x46#8 0x46#8) (base .parse) = .next b ∧
      exec (.badframe 0#8 0#8 0#8 0#8 0#8 0#8 0#8) (base .parse) = .next c ∧
      (Instr.cmd true true true 0x46#8 0x46#8 0x46#8 0x46#8).frameClass ≠ .cmdx ∧
      (Instr.badframe 0#8 0#8 0#8 0#8 0#8 0#8 0#8).frameClass = .badframe ∧
      (Instr.cmdx 0x38#8 0x46#8 0x46#8 0x46#8 0x46#8).frameClass ≠ .badframe :=
  ⟨_, _, _, rfl, rfl, rfl, by decide, by decide, by decide⟩
theorem test_witness_StepRunsDecodedInstruction :
    (parsing waiting).nextTurn = .block ∧ (parsing waiting).PHASE = .parse ∧
    (parsing waiting).BUF_VALID = true ∧
    FrameIs (parsing waiting).BUF 0x26#8 0x37#8 0x46#8 0x46#8 0x46#8 0x46#8 0x40#8 ∧
    decode [0x26#8, 0x37#8, 0x46#8, 0x46#8, 0x46#8, 0x46#8, 0x40#8]
      = .ok (.cmd true true true 0x46#8 0x46#8 0x46#8 0x46#8) [] := by
  simp only [FrameIs]; decide
theorem test_witness_FetchWordIsRunNext :
    decodeTableWord 56 0 = some (.badframe 0#8 0#8 0#8 0#8 0#8 0#8 0#8) ∧
    decodeTableWord 56 0x26373930313040 = some (.cmd true true true 0x39#8 0x30#8 0x31#8 0x30#8) := by decide
theorem test_witness_CanonicalFrameRoundTrip :
    ((parsing (enc scenarioB)).nextTurn = .block ∧ (parsing (enc scenarioB)).PHASE = .parse ∧
      (parsing (enc scenarioB)).BUF_VALID = true ∧
      (∀ k, k < 7 → some (Memory.read (parsing (enc scenarioB)).BUF k) = (enc scenarioB)[k]?)) ∧
    (hexval 0x46#8 ≠ none ∧ hexval 0x61#8 ≠ none ∧ hexval 0x30#8 ≠ none ∧ hexval 0x41#8 ≠ none ∧
      (∃ t, exec (.cmd false false true 0x46#8 0x61#8 0x30#8 0x41#8) (base .parse) = .next t) ∧
      0x46#8 ≤ 0x46#8 ∧ ¬ 0x61#8 ≤ 0x46#8) :=
  ⟨by decide, by decide, by decide, by decide, by decide, ⟨_, rfl⟩, by decide, by decide⟩
/-- The buffers differ above the frame, at offset 7. -/
theorem test_witness_ParseReadsFrameBytesOnly :
    (parsing waiting).nextTurn = .block ∧ (parsing waiting).PHASE = .parse ∧
    (∀ k, k < 7 → Memory.read (Memory.writeBytes [] 0 (waiting ++ [0x26#8])) k
      = Memory.read (parsing waiting).BUF k) ∧
    Memory.writeBytes [] 0 (waiting ++ [0x26#8]) ≠ (parsing waiting).BUF := by decide
/-- Both envelopes, and a digit on each side of its range. -/
theorem test_witness_ErrorsOfOneFrame :
    ((parsing noise).nextTurn = .block ∧ (parsing noise).PHASE = .parse ∧ (parsing noise).BUF_VALID = true ∧
      (parsing noise).ST = .cleared ∧
      FrameIs (parsing noise).BUF 0x58#8 0x58#8 0x58#8 0x58#8 0x58#8 0x58#8 0x58#8 ∧
      ¬ (0x58#8 = 0x26#8 ∧ 0x58#8 = 0x40#8)) ∧
    ((parsing waiting).ST = .cleared ∧
      FrameIs (parsing waiting).BUF 0x26#8 0x37#8 0x46#8 0x46#8 0x46#8 0x46#8 0x40#8 ∧
      (0x30#8 ≤ 0x37#8 ∧ 0x37#8 ≤ 0x37#8)) ∧
    ((parsing [0x26#8, 0x38#8, 0x47#8, 0x47#8, 0x47#8, 0x47#8, 0x40#8]).ST = .cleared ∧
      FrameIs (parsing [0x26#8, 0x38#8, 0x47#8, 0x47#8, 0x47#8, 0x47#8, 0x40#8]).BUF
        0x26#8 0x38#8 0x47#8 0x47#8 0x47#8 0x47#8 0x40#8) := by
  simp only [FrameIs]; decide

/-! ### Witnesses: POLL, SAMPLE and APPLY -/

theorem test_witness_PollTakesOldestBytes :
    (polling waiting).nextTurn = .block ∧ (polling waiting).PHASE = .poll ∧ 7 ≤ (polling waiting).RXQ.length := by
  decide
theorem test_witness_PollShortKeepsEverything :
    (polling [0#8, 0#8, 0#8, 0#8, 0#8, 0#8]).nextTurn = .block ∧
    (polling [0#8, 0#8, 0#8, 0#8, 0#8, 0#8]).PHASE = .poll ∧
    (polling [0#8, 0#8, 0#8, 0#8, 0#8, 0#8]).RXQ.length < 7 := by decide
/-- A good envelope with a digit on each side of its range, and a bad one; with no turn listed, and with bytes that
arrive before POLL, between POLL and PARSE, and after PARSE. -/
theorem test_witness_HeadOfQueueDecidesCommand :
    ((polling waiting).Undisturbed ∧ (polling waiting).PHASE = .poll ∧
      (polling waiting).RXQ = [0x26#8, 0x37#8, 0x46#8, 0x46#8, 0x46#8, 0x46#8, 0x40#8] ∧
      (polling waiting).BlockMove 0 0 ∧ (polling waiting).BlockMove 1 1 ∧ (polling waiting).blockMoves 2 = 2) ∧
    (busy.Undisturbed ∧ busy.PHASE = .poll ∧
      busy.RXQ = 0x58#8 :: 0x58#8 :: 0x58#8 :: 0x58#8 :: 0x58#8 :: 0x58#8 :: 0x58#8 :: waiting ∧
      busy.BlockMove 0 1 ∧ busy.BlockMove 1 3 ∧ busy.blockMoves 5 = 2 ∧ (0x58#8 ≠ 0x26#8 ∨ 0x58#8 ≠ 0x40#8)) ∧
    (0x30#8 ≤ 0x37#8 ∧ 0x37#8 ≤ 0x37#8) ∧ ¬ (0x30#8 ≤ 0x38#8 ∧ 0x38#8 ≤ 0x37#8) := by
  refine ⟨⟨quiet_undisturbed _ rfl, ?_⟩, ⟨busy_undisturbed, ?_⟩, by decide, by decide⟩ <;>
    (simp only [State.BlockMove]; decide)
theorem test_witness_SampleStoresAngles :
    (base .sample).nextTurn = .block ∧ (base .sample).PHASE = .sample ∧
    (base .sample).sensorResult = .ok 256#16 0xFF80#16 0#16 := by decide
theorem test_witness_SampleErrorStoresMarkedZero :
    ({ base .sample with ENV := { (base .sample).ENV with sensorResults := [.err] } } : State).nextTurn = .block ∧
    ({ base .sample with ENV := { (base .sample).ENV with sensorResults := [.err] } } : State).PHASE = .sample ∧
    ({ base .sample with ENV := { (base .sample).ENV with sensorResults := [.err] } } : State).sensorResult = .err := by
  decide
/-- The first place of the sequence, and the last. -/
theorem test_witness_OneWriteOfApply :
    (applying [.fail]).nextTurn = .block ∧ (applying [.fail]).PHASE = .apply ∧
    (applying [.fail]).WRITE_POS ≠ .duty2 ∧
    ({ applying [.ok] with WRITE_POS := .duty2 } : State).nextTurn = .block ∧
    ({ applying [.ok] with WRITE_POS := .duty2 } : State).PHASE = .apply ∧
    ({ applying [.ok] with WRITE_POS := .duty2 } : State).WRITE_POS = .duty2 := by decide
/-- No write yet, all five, and bytes that arrive between two writes. -/
theorem test_witness_ApplyWritesInOrder :
    (applying []).Undisturbed ∧ (applying []).PHASE = .apply ∧ (applying []).WRITE_POS = .dir1 ∧
    (applying []).blockMoves 0 = 0 ∧ (applying []).blockMoves 5 = 5 ∧
    (busyFrom (applying [])).Undisturbed ∧ (busyFrom (applying [])).PHASE = .apply ∧
    (busyFrom (applying [])).WRITE_POS = .dir1 ∧ (busyFrom (applying [])).blockMoves 5 = 2 := by
  refine ⟨quiet_undisturbed _ rfl, by decide, by decide, by decide, by decide, busyFrom_undisturbed _, ?_⟩
  decide
theorem test_witness_WritesPassValuesThrough : (applying [.ok]).writeResult 0 = .ok := by decide

/-! ### Witnesses: INIT, SLEEP, HALT and the environment -/

theorem test_witness_InitEntersLoopOrHalts :
    ((base .init).nextTurn = .block ∧ (base .init).PHASE = .init ∧ (base .init).initOk = true) ∧
    ({ base .init with ENV := { (base .init).ENV with initResults := [false] } } : State).nextTurn = .block ∧
    ({ base .init with ENV := { (base .init).ENV with initResults := [false] } } : State).initOk = false := by
  decide
theorem test_witness_SleepChangesPhaseOnly :
    (base .sleep).nextTurn = .block ∧ (base .sleep).PHASE = .sleep := by decide
theorem test_witness_SenderAppendsAtTail :
    (withTurn (.sender noise) (polling waiting)).nextTurn = .sender noise := by decide
/-- Between the third and the fourth write of an APPLY (2.10). -/
theorem test_witness_TerminationLeavesOutputs :
    (withTurn .supervisor ({ applying [] with WRITE_POS := .duty1 })).nextTurn = .supervisor := by decide
theorem test_witness_TerminationInsideFailSafePath :
    (withTurn .supervisorInside (parsing noise)).nextTurn = .supervisorInside ∧
    (withTurn .supervisorInside (parsing noise)).PHASE = .parse ∧
    (withTurn .supervisorInside (parsing noise)).BUF_VALID = true ∧
    FrameIs (withTurn .supervisorInside (parsing noise)).BUF 0x58#8 0x58#8 0x58#8 0x58#8 0x58#8 0x58#8 0x58#8 ∧
    (0x58#8 ≠ 0x26#8 ∨ 0x58#8 ≠ 0x40#8) := by
  simp only [FrameIs]; decide
/-- A POLL, a PARSE of a good envelope, a PARSE without a buffer, and a SAMPLE. -/
theorem test_witness_TerminationInsideOtherOperations :
    (withTurn .supervisorInside (polling waiting)).nextTurn = .supervisorInside ∧
    (withTurn .supervisorInside (polling waiting)).PHASE = .poll ∧
    ((withTurn .supervisorInside (parsing waiting)).PHASE = .parse ∧
      Memory.read (withTurn .supervisorInside (parsing waiting)).BUF 0 = 0x26#8 ∧
      Memory.read (withTurn .supervisorInside (parsing waiting)).BUF 6 = 0x40#8) ∧
    ((withTurn .supervisorInside (base .parse)).PHASE = .parse ∧
      (withTurn .supervisorInside (base .parse)).BUF_VALID = false) ∧
    (withTurn .supervisorInside (base .sample)).nextTurn = .supervisorInside ∧
    (withTurn .supervisorInside (base .sample)).PHASE ≠ .poll ∧
    (withTurn .supervisorInside (base .sample)).PHASE ≠ .parse := by decide
theorem test_witness_HaltIsForever : (withTurn (.sender noise) (base .halt)).PHASE = .halt := by decide
/-- A step of each agent, and of the block in each phase. -/
theorem test_witness_PhaseTransitions :
    (∃ t, step (withTurn (.sender noise) (base .poll)) = .next t) ∧
    (∃ t, step (withTurn .supervisor (base .poll)) = .next t) ∧
    (∃ t, step (withTurn .supervisorInside (base .poll)) = .next t) ∧
    (∃ t, step (base .init) = .next t) ∧ (∃ t, step (polling waiting) = .next t) ∧
    (∃ t, step (base .poll) = .next t) ∧ (∃ t, step (parsing noise) = .next t) ∧
    (∃ t, step (base .sample) = .next t) ∧ (∃ t, step (applying []) = .next t) ∧
    (∃ t, step { applying [] with WRITE_POS := .duty2 } = .next t) ∧
    (∃ t, step (base .sleep) = .next t) ∧ (∃ t, step (base .halt) = .next t) :=
  ⟨⟨_, rfl⟩, ⟨_, rfl⟩, ⟨_, rfl⟩, ⟨_, rfl⟩, ⟨_, rfl⟩, ⟨_, rfl⟩, ⟨_, rfl⟩, ⟨_, rfl⟩, ⟨_, rfl⟩, ⟨_, rfl⟩, ⟨_, rfl⟩,
    ⟨_, rfl⟩⟩
theorem test_witness_OnlyApplyReadsCommand :
    ((parsing noise).nextTurn = .block ∧ (parsing noise).PHASE = .parse ∧ ∃ t, step (parsing noise) = .next t) ∧
    (¬ ((base .sample).nextTurn = .block ∧ ((base .sample).PHASE = .parse ∨ (base .sample).PHASE = .apply)) ∧
      ∃ t, step (base .sample) = .next t) :=
  ⟨⟨rfl, rfl, _, rfl⟩, by decide, _, rfl⟩
/-- Each field is changed by a step. -/
theorem test_witness_EachOperationWritesItsOwn :
    seen (step (parsing noise)) (fun t => decide (t.AS ≠ (parsing noise).AS ∧ t.RXQ ≠ (parsing noise).RXQ))
      = some true ∧
    seen (step (parsing noise)) (fun t => decide (t.ST ≠ (parsing noise).ST ∧ t.BUF_VALID ≠ (parsing noise).BUF_VALID))
      = some true ∧
    seen (step (applying [.ok])) (fun t => decide (t.OUT ≠ (applying [.ok]).OUT)) = some true ∧
    seen (step (base .sample)) (fun t => decide (t.TLM ≠ (base .sample).TLM)) = some true ∧
    (∃ t, step (polling waiting) = .next t ∧ t.BUF_LEN ≠ (polling waiting).BUF_LEN) ∧
    (∃ t, step { base .init with ENV := { (base .init).ENV with initResults := [false] } } = .next t ∧
      t.EXIT ≠ none) ∧
    seen (step (withTurn (.sender noise) (polling waiting))) (fun t => decide (t.RXQ ≠ waiting)) = some true ∧
    seen (step (withTurn .supervisorInside (parsing noise))) (fun t => decide (t.RXQ ≠ waiting)) = some true := by
  refine ⟨by decide, by decide, by decide, by decide, ⟨_, rfl, ?_⟩, ⟨_, rfl, by simp [initialise, raiseError, base, State.initOk]⟩,
    by decide, by decide⟩
  rw [poll_enough (by decide)]
  show min 7 Config.BUF_CAP ≠ 0
  unfold Config.BUF_CAP
  omega
theorem test_witness_OnlyParseWithoutFrameStops :
    step (base .parse) = .fault .parseWithoutBuffer := rfl

/-! ### Witnesses: the invariants and the whole-machine claims -/

/-- A state that meets the buffer's invariant with a frame in hand. -/
theorem bufferReady_parsing : BufferReady (parsing noise) := by
  refine ⟨by decide, ?_, ?_, ?_, by decide, by decide, fun _ => .inl rfl⟩
  · have h : ∀ c ∈ (parsing noise).BUF, c.1 < 7 := by decide
    intro c hc
    have := h c hc
    unfold Config.BUF_CAP
    omega
  · show 7 ≤ Config.BUF_CAP
    unfold Config.BUF_CAP
    omega
  · have h : ∀ k, k < 7 → (Memory.lookup (parsing noise).BUF k).isSome = true := by decide
    intro k hk
    exact Option.isSome_iff_exists.mp (h k hk)

/-- A state that meets it without one. -/
theorem bufferReady_polling (bytes : List Byte) : BufferReady (polling bytes) := by
  constructor <;> simp [polling, base, State.reset, Memory.wf]

/-- A state half way through an APPLY, two events behind it. -/
def midApply : State :=
  { applying [.ok] with
    OUT := [⟨.dir1, .level false, .ok⟩, ⟨.dir2, .level false, .fail⟩]
    EP := { Endpoints.undriven with dir1 := some false }
    WRITE_POS := .relay }

theorem test_witness_BufferReadyIsKept :
    (BufferReady (parsing noise) ∧ ∃ t, step (parsing noise) = .next t) ∧
    (BufferReady (polling waiting) ∧ ∃ t, step (polling waiting) = .next t) :=
  ⟨⟨bufferReady_parsing, _, rfl⟩, bufferReady_polling _, _, rfl⟩
theorem test_witness_MachineNeverStops : BufferReady (parsing noise) := bufferReady_parsing
theorem test_witness_WriteOrderIsKept : TraceOrdered midApply ∧ ∃ t, step midApply = .next t := by
  refine ⟨⟨?_, by decide, by decide⟩, _, rfl⟩
  intro k w h
  match k with
  | 0 => cases h; rfl
  | 1 => cases h; rfl
  | k + 2 => simp [midApply] at h
theorem test_witness_EndpointsFollowTraceIsKept :
    EndpointsFollowTrace midApply ∧ ∃ t, step midApply = .next t := ⟨rfl, _, rfl⟩
theorem test_witness_StatusConsistencyIsKept :
    StatusConsistent (parsing noise) ∧ ∃ t, step (parsing noise) = .next t :=
  ⟨⟨by decide, by decide, by decide, by decide⟩, _, rfl⟩
theorem test_witness_StartUpIsKept :
    (StartUp (base .init) ∧ ∃ t, step (base .init) = .next t) ∧
    (StartUp { base .halt with EXIT := some 1 } ∧ ∃ t, step { base .halt with EXIT := some 1 } = .next t) :=
  ⟨⟨⟨by decide, by decide⟩, _, rfl⟩, ⟨⟨by decide, by decide⟩, _, rfl⟩⟩
theorem test_witness_LoopReturnsToPoll :
    BufferReady busy ∧ busy.PHASE ≠ .halt ∧ busy.Undisturbed :=
  ⟨by constructor <;> simp [busy, busyFrom, polling, base, State.reset, Memory.wf], by decide, busy_undisturbed⟩
theorem test_witness_MalformedFrameTurnsAllOff :
    busy.Undisturbed ∧ busy.PHASE = .poll ∧
    busy.RXQ = 0x58#8 :: 0x58#8 :: 0x58#8 :: 0x58#8 :: 0x58#8 :: 0x58#8 :: 0x58#8 :: waiting ∧
    (0x58#8 ≠ 0x26#8 ∨ 0x58#8 ≠ 0x40#8) ∧ busy.BlockMove 1 3 ∧ busy.blockMoves 11 = 8 := by
  refine ⟨busy_undisturbed, ?_⟩
  simp only [State.BlockMove]; decide
/-- Six bytes wait, and the seventh arrives before the POLL. -/
theorem test_witness_FrameReachesEndpointsInItsCycle :
    (busyFrom (polling [0x26#8, 0x37#8, 0x46#8, 0x46#8, 0x46#8, 0x46#8])).Undisturbed ∧
    (busyFrom (polling [0x26#8, 0x37#8, 0x46#8, 0x46#8, 0x46#8, 0x46#8])).PHASE = .poll ∧
    (busyFrom (polling [0x26#8, 0x37#8, 0x46#8, 0x46#8, 0x46#8, 0x46#8])).BlockMove 0 1 ∧
    7 ≤ ((busyFrom (polling [0x26#8, 0x37#8, 0x46#8, 0x46#8, 0x46#8, 0x46#8])).RXQ ++
      (busyFrom (polling [0x26#8, 0x37#8, 0x46#8, 0x46#8, 0x46#8, 0x46#8])).arrived 0 1).length ∧
    (busyFrom (polling [0x26#8, 0x37#8, 0x46#8, 0x46#8, 0x46#8, 0x46#8])).BlockMove 1 3 ∧
    (busyFrom (polling [0x26#8, 0x37#8, 0x46#8, 0x46#8, 0x46#8, 0x46#8])).blockMoves 11 = 8 := by
  refine ⟨busyFrom_undisturbed _, ?_⟩
  simp only [State.BlockMove]; decide
/-- The premise of the last clause of both statements: three steps on, the five writes to come are accepted. -/
theorem test_witness_writes_accepted :
    (polling noise).blockMoves 3 = 3 ∧
      ∃ u, steps 3 (polling noise) = .next u ∧ ∀ k, k < 5 → u.writeResult k = .ok := by
  refine ⟨by decide, ?_⟩
  have hm : min 7 Config.BUF_CAP = 7 := by unfold Config.BUF_CAP; omega
  have h : step (polling noise) = .next { parsing noise with AS := ALL_OFF, RXQ := [] } := by
    rw [step_block rfl]
    show Host.Outcome.next (poll (polling noise)) = _
    rw [poll_enough (by decide)]
    show Host.Outcome.next { polling noise with
      ST := .cleared
      BUF := Memory.writeBytes [] 0 (noise.take (min 7 Config.BUF_CAP))
      RXQ := noise.drop (min 7 Config.BUF_CAP)
      BUF_LEN := min 7 Config.BUF_CAP
      BUF_VALID := true
      PHASE := .parse } = _
    rw [hm]
    rfl
  rw [steps_succ 2 h]
  exact ⟨_, rfl, by decide⟩
theorem test_witness_SilenceHoldsCommand :
    (polling [0#8, 0#8, 0#8, 0#8, 0#8, 0#8]).ENV.turns = [] ∧
    (polling [0#8, 0#8, 0#8, 0#8, 0#8, 0#8]).PHASE = .poll ∧
    (polling [0#8, 0#8, 0#8, 0#8, 0#8, 0#8]).RXQ.length < 7 := by decide
/-- One step, a PARSE of noise. -/
theorem test_witness_MalformedInputStaysOff :
    ∃ s t : State, s.AS = ALL_OFF ∧
      (∀ k u b0 b1 b2 b3 b4 b5 b6, k < 1 → steps k s = .next u → u.PHASE = .parse →
        FrameIs u.BUF b0 b1 b2 b3 b4 b5 b6 → b0 ≠ 0x26#8 ∨ b6 ≠ 0x40#8) ∧
      s.PHASE = .parse ∧ steps 1 s = .next t := by
  refine ⟨{ parsing noise with AS := ALL_OFF }, _, rfl, ?_, rfl, rfl⟩
  intro k u b0 b1 b2 b3 b4 b5 b6 hk hu _ hf
  obtain rfl : k = 0 := by omega
  cases hu
  left
  have h0 : Memory.read (parsing noise).BUF 0 = b0 := hf.1
  have h1 : Memory.read (parsing noise).BUF 0 = 0x58#8 := by decide
  rw [← h0, h1]
  decide

end Sys2Proof.Tests
end

section
/-! PROOFS. The reset value of the command and the fail-safe target (spec/10_state.md R11). -/

namespace Sys2Proof.Machine

/-- E_FRAMING's recovery in full: flush, `AS` to the fail-safe target, record (R145, D27). -/
theorem raiseError_framing (s : State) :
    raiseError .framing s = { s with AS := ALL_OFF, RXQ := [], ST := { s.ST with frame := .badframe } } := rfl

/-- A BADFRAME is E_FRAMING's recovery, whatever its seven bytes (R82). -/
theorem exec_badframe (b0 b1 b2 b3 b4 b5 b6 : Byte) (s : State) :
    exec (.badframe b0 b1 b2 b3 b4 b5 b6) s = .next (raiseError .framing s) := rfl

/-- Settles O42: the two values are the definitions', and a BADFRAME takes E_FRAMING's recovery, which resets `AS`. -/
theorem resetCommandIsAllOff : Obligations.ResetCommandIsAllOff := by
  refine ⟨rfl, rfl, fun b0 b1 b2 b3 b4 b5 b6 s => ⟨_, exec_badframe b0 b1 b2 b3 b4 b5 b6 s, ?_⟩⟩
  rw [raiseError_framing]

end Sys2Proof.Machine
end

section
/-! PROOFS. The envelope test of PARSE (spec/41_parser.md R81). -/

namespace Sys2Proof

/-- A frame whose envelope holds is a CMD or a CMDX, as its digit decides (R57). -/
theorem decodeFrame_of_envelope {b0 b6 : Byte} (h : b0 = Config.HDR ∧ b6 = Config.FTR) (b1 b2 b3 b4 b5 : Byte) :
    decodeFrame b0 b1 b2 b3 b4 b5 b6 =
      if (digit b1).recognised then
        .cmd (digit b1).relay (digit b1).pwm2_dir (digit b1).pwm1_dir b2 b3 b4 b5
      else .cmdx b1 b2 b3 b4 b5 :=
  if_pos h

/-- A frame is accepted, as a CMD or a CMDX, exactly when its envelope holds (R81). -/
theorem decodeFrame_accepted_iff (b0 b1 b2 b3 b4 b5 b6 : Byte) :
    (decodeFrame b0 b1 b2 b3 b4 b5 b6).frameClass ≠ .badframe ↔ b0 = Config.HDR ∧ b6 = Config.FTR := by
  by_cases h : b0 = Config.HDR ∧ b6 = Config.FTR
  · refine iff_of_true ?_ h
    rw [decodeFrame_of_envelope h]
    split <;> simp [Instr.frameClass]
  · refine iff_of_false ?_ h
    simp [decodeFrame_of_bad h, Instr.frameClass]

end Sys2Proof

namespace Sys2Proof.Machine

/-- Whatever its five inner bytes, a frame whose envelope fails leaves the state of E_FRAMING's recovery (R81, R82). -/
theorem exec_decodeFrame_of_bad {b0 b6 : Byte} (h : ¬ (b0 = Config.HDR ∧ b6 = Config.FTR))
    (b1 b2 b3 b4 b5 : Byte) (s : State) :
    exec (decodeFrame b0 b1 b2 b3 b4 b5 b6) s = .next (raiseError .framing s) := by
  rw [decodeFrame_of_bad h, exec_badframe]

/-- Settles O15: the class test is the envelope test, and two rejected frames with one envelope leave the same state,
`AS` with it. -/
theorem envelopeDecidesAcceptance : Obligations.EnvelopeDecidesAcceptance :=
  fun b0 b1 b2 b3 b4 b5 b6 =>
    ⟨decodeFrame_accepted_iff b0 b1 b2 b3 b4 b5 b6, fun hbad c1 c2 c3 c4 c5 s =>
      ⟨_, _, exec_decodeFrame_of_bad hbad b1 b2 b3 b4 b5 s, exec_decodeFrame_of_bad hbad c1 c2 c3 c4 c5 s, rfl⟩⟩

end Sys2Proof.Machine
end

section
/-! PROOFS. What an accepted write puts on its endpoint (spec/42_driver.md R102). -/

namespace Sys2Proof.Machine

/-- An accepted write hands its value to its endpoint as it is (R33, R102). -/
theorem issueWrite_EP_of_ok {s : State} (hok : s.writeResult 0 = .ok) (e : Endpoint) (v : OutValue) :
    (issueWrite e v s).EP = s.EP.set e v := by
  simp only [issueWrite_eq, hok, Endpoints.observe]

/-- Settles O29: each of the five operations is one write on the endpoint it names. -/
theorem writesPassValuesThrough : Obligations.WritesPassValuesThrough := fun _ hok =>
  ⟨fun v => issueWrite_EP_of_ok hok .dir1 (.level v),
    fun v => issueWrite_EP_of_ok hok .dir2 (.level v),
    fun v => issueWrite_EP_of_ok hok .relay (.level v),
    fun v => issueWrite_EP_of_ok hok .duty1 (.duty v),
    fun v => issueWrite_EP_of_ok hok .duty2 (.duty v)⟩

end Sys2Proof.Machine
end

section
/-! PROOFS. The decoder and the encoder are inverse to each other, and a frame has one class
(spec/30_encoding.md R50, R54, R57, R59). -/

namespace Sys2Proof

/-- A `cmdx` term is a frame of its class when its digit byte is not recognised (R57). -/
theorem wellFormed_cmdx_iff (d h2 l2 h1 l1 : Byte) :
    (Instr.cmdx d h2 l2 h1 l1).WellFormed ↔ ¬ (digit d).recognised = true := by
  simp [Instr.WellFormed, Instr.wfError, digit_recognised]

/-- A `badframe` term is a frame of its class when its envelope fails (R57). -/
theorem wellFormed_badframe_iff (b0 b1 b2 b3 b4 b5 b6 : Byte) :
    (Instr.badframe b0 b1 b2 b3 b4 b5 b6).WellFormed ↔ ¬ (b0 = Config.HDR ∧ b6 = Config.FTR) := by
  simp [Instr.WellFormed, Instr.wfError]

/-- The character of the bits a recognised digit gives is the digit (R54, R62). -/
theorem digitChar_digit {b : Byte} (h : (digit b).recognised = true) :
    digitChar (digit b).relay (digit b).pwm2_dir (digit b).pwm1_dir = b := by
  revert h
  revert b
  decide

/-- Settles O1: by the three classes, the envelope and the digit of the encoding being those of the class. -/
theorem decodeOfEncodeIsInstruction : Obligations.DecodeOfEncodeIsInstruction := by
  intro i rest hwf
  cases i with
  | cmd relay pwm2_dir pwm1_dir h2 l2 h1 l1 =>
    simp only [encode, List.cons_append, List.nil_append, decode_seven]
    rw [decodeFrame_of_envelope ⟨rfl, rfl⟩, digit_digitChar]
    rfl
  | cmdx d h2 l2 h1 l1 =>
    have hd := (wellFormed_cmdx_iff d h2 l2 h1 l1).mp hwf
    simp only [encode, List.cons_append, List.nil_append, decode_seven]
    rw [decodeFrame_of_envelope ⟨rfl, rfl⟩, if_neg hd]
  | badframe b0 b1 b2 b3 b4 b5 b6 =>
    have hbad := (wellFormed_badframe_iff b0 b1 b2 b3 b4 b5 b6).mp hwf
    simp only [encode, List.cons_append, List.nil_append, decode_seven]
    rw [decodeFrame_of_bad hbad]

/-- The three outcomes of the class test, in its order: envelope, then digit (R57). -/
theorem decodeFrame_cases (b0 b1 b2 b3 b4 b5 b6 : Byte) :
    ((b0 = Config.HDR ∧ b6 = Config.FTR) ∧ (digit b1).recognised = true ∧
      decodeFrame b0 b1 b2 b3 b4 b5 b6 =
        .cmd (digit b1).relay (digit b1).pwm2_dir (digit b1).pwm1_dir b2 b3 b4 b5) ∨
    ((b0 = Config.HDR ∧ b6 = Config.FTR) ∧ ¬ (digit b1).recognised = true ∧
      decodeFrame b0 b1 b2 b3 b4 b5 b6 = .cmdx b1 b2 b3 b4 b5) ∨
    (¬ (b0 = Config.HDR ∧ b6 = Config.FTR) ∧
      decodeFrame b0 b1 b2 b3 b4 b5 b6 = .badframe b0 b1 b2 b3 b4 b5 b6) := by
  by_cases he : b0 = Config.HDR ∧ b6 = Config.FTR
  · by_cases hd : (digit b1).recognised = true
    · exact .inl ⟨he, hd, by rw [decodeFrame_of_envelope he, if_pos hd]⟩
    · exact .inr (.inl ⟨he, hd, by rw [decodeFrame_of_envelope he, if_neg hd]⟩)
  · exact .inr (.inr ⟨he, decodeFrame_of_bad he b1 b2 b3 b4 b5⟩)

/-- The decoder gives frames of the class they name. -/
theorem wellFormed_decodeFrame (b0 b1 b2 b3 b4 b5 b6 : Byte) :
    (decodeFrame b0 b1 b2 b3 b4 b5 b6).WellFormed := by
  rcases decodeFrame_cases b0 b1 b2 b3 b4 b5 b6 with ⟨_, _, e⟩ | ⟨_, hd, e⟩ | ⟨he, e⟩
  · rw [e]; rfl
  · rw [e]; exact (wellFormed_cmdx_iff ..).mpr hd
  · rw [e]; exact (wellFormed_badframe_iff ..).mpr he

/-- The bytes of what the decoder gives are the bytes it read. -/
theorem encode_decodeFrame (b0 b1 b2 b3 b4 b5 b6 : Byte) :
    encode (decodeFrame b0 b1 b2 b3 b4 b5 b6) = [b0, b1, b2, b3, b4, b5, b6] := by
  rcases decodeFrame_cases b0 b1 b2 b3 b4 b5 b6 with ⟨⟨rfl, rfl⟩, hd, e⟩ | ⟨⟨rfl, rfl⟩, _, e⟩ | ⟨_, e⟩
  · rw [e]; simp only [encode, digitChar_digit hd]
  · rw [e]; rfl
  · rw [e]; rfl

/-- Settles O2: the decoder reads seven bytes, and each class gives them back. -/
theorem encodeOfDecodeIsBytes : Obligations.EncodeOfDecodeIsBytes := by
  intro bs i rest h
  obtain ⟨b0, b1, b2, b3, b4, b5, b6, rfl, rfl⟩ := decode_cases h
  exact ⟨wellFormed_decodeFrame .., by rw [encode_decodeFrame]; rfl⟩

/-- Settles O3: each outcome of the class test makes one of the three conditions true and the other two false. -/
theorem frameClassesPartitionSevenBytes : Obligations.FrameClassesPartitionSevenBytes := by
  intro b0 b1 b2 b3 b4 b5 b6
  refine ⟨_, decode_seven b0 b1 b2 b3 b4 b5 b6 [], ?_⟩
  rw [← not_and_or, ← digit_recognised, show (0x26#8 : Byte) = Config.HDR from rfl,
    show (0x40#8 : Byte) = Config.FTR from rfl]
  rcases decodeFrame_cases b0 b1 b2 b3 b4 b5 b6 with ⟨he, hd, e⟩ | ⟨he, hd, e⟩ | ⟨he, e⟩
  · rw [e]; simp [Instr.frameClass, he, hd]
  · rw [e]; simp [Instr.frameClass, he, hd]
  · rw [e]; simp [Instr.frameClass, he]

end Sys2Proof
end

section
/-! PROOFS. The frame word and the mask and match table (spec/30_encoding.md R59, D21): a word is its seven bytes, so
a row of the table is tested byte by byte. -/

namespace Sys2Proof

/-- The bytes of the word of seven bytes are the seven bytes (R8, D21). -/
theorem frameBytes_frameWord (b0 b1 b2 b3 b4 b5 b6 : Byte) :
    frameBytes (frameWord b0 b1 b2 b3 b4 b5 b6) = [b0, b1, b2, b3, b4, b5, b6] := by
  simp only [frameBytes, frameWord, List.cons.injEq, and_true]
  refine ⟨?_, ?_, ?_, ?_, ?_, ?_, ?_⟩ <;>
  · ext i hi
    simp only [BitVec.getElem_extractLsb', BitVec.getLsbD_or, BitVec.getLsbD_shiftLeft, BitVec.getLsbD_setWidth]
    grind

/-- The word of a word's bytes is the word (R8, D21). -/
theorem frameWord_frameBytes (w : FrameWord) :
    frameWord (w.extractLsb' 48 8) (w.extractLsb' 40 8) (w.extractLsb' 32 8) (w.extractLsb' 24 8)
      (w.extractLsb' 16 8) (w.extractLsb' 8 8) (w.extractLsb' 0 8) = w := by
  ext i hi
  simp only [frameWord, BitVec.getElem_or, BitVec.getElem_shiftLeft, BitVec.getElem_setWidth,
    BitVec.getLsbD_extractLsb']
  grind

/-- A word is determined by its bytes. -/
theorem frameBytes_injective : Function.Injective frameBytes := by
  intro v w h
  simp only [frameBytes, List.cons.injEq, and_true] at h
  obtain ⟨h0, h1, h2, h3, h4, h5, h6⟩ := h
  rw [← frameWord_frameBytes v, ← frameWord_frameBytes w, h0, h1, h2, h3, h4, h5, h6]

/-- A row of the table is tested byte by byte. -/
theorem and_eq_iff_frameBytes (w mask pattern : FrameWord) :
    w &&& mask = pattern ↔
      List.zipWith (· &&& ·) (frameBytes w) (frameBytes mask) = frameBytes pattern := by
  have hand : List.zipWith (· &&& ·) (frameBytes w) (frameBytes mask) = frameBytes (w &&& mask) := by
    simp [frameBytes, BitVec.extractLsb'_and]
  rw [hand, frameBytes_injective.eq_iff]

/-- The digits `0` to `7` are the bytes of one pattern of five bits (R54, R59). -/
theorem digit_recognised_iff_masked (b : Byte) : (digit b).recognised = true ↔ b &&& 0xF8#8 = 0x30#8 := by
  revert b
  decide

/-- The mask of a whole byte keeps it. -/
theorem and_wholeByte (b : Byte) : b &&& 0xFF#8 = b := BitVec.and_allOnes

/-- The first row of the table matches a frame whose envelope holds and whose digit is recognised (R59). -/
theorem cmdRow_iff (b0 b1 b2 b3 b4 b5 b6 : Byte) :
    frameWord b0 b1 b2 b3 b4 b5 b6 &&& 0xFFF800000000FF#56 = 0x26300000000040#56 ↔
      (b0 = Config.HDR ∧ b6 = Config.FTR) ∧ (digit b1).recognised = true := by
  have hm : frameBytes 0xFFF800000000FF#56 = [0xFF#8, 0xF8#8, 0#8, 0#8, 0#8, 0#8, 0xFF#8] := by decide
  have hp : frameBytes 0x26300000000040#56 = [Config.HDR, 0x30#8, 0#8, 0#8, 0#8, 0#8, Config.FTR] := by decide
  rw [and_eq_iff_frameBytes, frameBytes_frameWord, hm, hp, digit_recognised_iff_masked, and_assoc,
    and_comm (a := b6 = _)]
  simp [and_wholeByte]

/-- The second row of the table matches a frame whose envelope holds (R59). -/
theorem cmdxRow_iff (b0 b1 b2 b3 b4 b5 b6 : Byte) :
    frameWord b0 b1 b2 b3 b4 b5 b6 &&& 0xFF0000000000FF#56 = 0x26000000000040#56 ↔
      b0 = Config.HDR ∧ b6 = Config.FTR := by
  have hm : frameBytes 0xFF0000000000FF#56 = [0xFF#8, 0#8, 0#8, 0#8, 0#8, 0#8, 0xFF#8] := by decide
  have hp : frameBytes 0x26000000000040#56 = [Config.HDR, 0#8, 0#8, 0#8, 0#8, 0#8, Config.FTR] := by decide
  rw [and_eq_iff_frameBytes, frameBytes_frameWord, hm, hp]
  simp [and_wholeByte]

/-- The table tests its first row, then its second; the third matches every word (R59). -/
theorem classify_eq (w : FrameWord) :
    classify w =
      if w &&& 0xFFF800000000FF#56 = 0x26300000000040#56 then some .cmd
      else if w &&& 0xFF0000000000FF#56 = 0x26000000000040#56 then some .cmdx
      else some .badframe := by
  by_cases h1 : w &&& 0xFFF800000000FF#56 = 0x26300000000040#56
  · simp [classify, opcodeTable, h1]
  · by_cases h2 : w &&& 0xFF0000000000FF#56 = 0x26000000000040#56
    · simp [classify, opcodeTable, h1, beq_eq_false_iff_ne.mpr h1, h2]
    · simp [classify, opcodeTable, h1, beq_eq_false_iff_ne.mpr h1, h2, beq_eq_false_iff_ne.mpr h2]

/-- Settles O4: the tests of the first two rows are the digit test and the envelope test of the decoder. -/
theorem opcodeTableSelectsDecodedClass : Obligations.OpcodeTableSelectsDecodedClass := by
  intro b0 b1 b2 b3 b4 b5 b6
  refine ⟨frameBytes_frameWord .., ?_⟩
  rw [classify_eq]
  simp only [cmdRow_iff, cmdxRow_iff]
  rcases decodeFrame_cases b0 b1 b2 b3 b4 b5 b6 with ⟨he, hd, e⟩ | ⟨he, hd, e⟩ | ⟨he, e⟩
  · rw [e, if_pos ⟨he, hd⟩]; rfl
  · rw [e, if_neg (fun h => hd h.2), if_pos he]; rfl
  · rw [e, if_neg (fun h => he h.1), if_neg he]; rfl

/-- Settles O5: the decoder on the four words. -/
theorem scenarioWordsDecode : Obligations.ScenarioWordsDecode := by
  refine ⟨?_, ?_, ?_, ?_⟩ <;> decide

end Sys2Proof
end

section
/-! PROOFS. The digits and the duty fields (spec/30_encoding.md R53 to R56). -/

namespace Sys2Proof

/-- The bits of a recognised digit are those of the byte itself: `0x30` has none of the three (R54). -/
theorem digit_of_recognised {b : Byte} (h : 0x30#8 ≤ b ∧ b ≤ 0x37#8) :
    digit b = ⟨true, b.getLsbD 2, b.getLsbD 1, b.getLsbD 0⟩ := by
  revert h
  revert b
  decide

/-- The default entry of the digit's table (R54). -/
theorem digit_of_not_recognised {b : Byte} (h : ¬ (0x30#8 ≤ b ∧ b ≤ 0x37#8)) :
    digit b = ⟨false, false, false, false⟩ :=
  if_neg h

/-- Settles O6: the eight rows by evaluation, the two general clauses by the test of the range. -/
theorem digitFollowsTable : Obligations.DigitFollowsTable :=
  ⟨rfl, rfl, rfl, rfl, rfl, rfl, rfl, rfl, fun _ => digit_of_recognised, fun _ => digit_of_not_recognised⟩

end Sys2Proof

namespace Sys2Proof.Machine

/-- The value of `0` to `9` (R53). -/
theorem hexval_decimal {b : Byte} (h : 0x30#8 ≤ b ∧ b ≤ 0x39#8) : hexval b = some (b.toNat - 48) :=
  if_pos h

/-- The value of `A` to `F` (R53). -/
theorem hexval_capital {b : Byte} (h : 0x41#8 ≤ b ∧ b ≤ 0x46#8) : hexval b = some (b.toNat - 55) := by
  obtain ⟨h1, h2⟩ := h
  have hdec : ¬ (0x30#8 ≤ b ∧ b ≤ 0x39#8) := by bv_omega
  rw [hexval, if_neg hdec, if_pos ⟨h1, h2⟩]
  congr 1
  bv_omega

/-- The value of `a` to `f` (R53, D8). -/
theorem hexval_small {b : Byte} (h : 0x61#8 ≤ b ∧ b ≤ 0x66#8) : hexval b = some (b.toNat - 87) := by
  obtain ⟨h1, h2⟩ := h
  have hdec : ¬ (0x30#8 ≤ b ∧ b ≤ 0x39#8) := by bv_omega
  have hcap : ¬ (0x41#8 ≤ b ∧ b ≤ 0x46#8) := by bv_omega
  rw [hexval, if_neg hdec, if_neg hcap, if_pos ⟨rfl, h1, h2⟩]
  congr 1
  bv_omega

/-- A byte in none of the three ranges is no digit (R53). -/
theorem hexval_eq_none {b : Byte} (hdec : ¬ (0x30#8 ≤ b ∧ b ≤ 0x39#8)) (hcap : ¬ (0x41#8 ≤ b ∧ b ≤ 0x46#8))
    (hsmall : ¬ (0x61#8 ≤ b ∧ b ≤ 0x66#8)) : hexval b = none := by
  rw [hexval, if_neg hdec, if_neg hcap, if_neg (fun h => hsmall h.2)]

/-- Settles O7: range by range. -/
theorem hexvalFollowsAlphabet : Obligations.HexvalFollowsAlphabet :=
  ⟨fun _ => hexval_decimal, fun _ => hexval_capital, fun _ => hexval_small, fun _ => hexval_eq_none⟩

/-- A raw value in range is kept (R56). -/
theorem clamp0_toNat {v : Int} (h : 0 ≤ v ∧ v ≤ 255) : ((clamp0 (some v)).toNat : Int) = v := by
  simp only [clamp0, if_pos h, BitVec.toNat_ofInt]
  omega

/-- A raw value out of range is 0 (R56). -/
theorem clamp0_out_of_range {v : Int} (h : v < 0 ∨ 255 < v) : clamp0 (some v) = 0#8 :=
  if_neg (by omega)

/-- Settles O8: the two sides of the range test, and `ERR`. -/
theorem clampNeverWrapsOrSaturates : Obligations.ClampNeverWrapsOrSaturates :=
  ⟨fun _ => clamp0_toNat, fun _ => clamp0_out_of_range, rfl⟩

/-- A field of two digits has their value, the high digit first (R55). -/
theorem hex2_of_digits {hi lo : Byte} {a b : Nat} (ha : hexval hi = some a) (hb : hexval lo = some b) :
    hex2 hi lo = some (16 * (a : Int) + (b : Int)) := by
  simp only [hex2, ha, hb]

/-- A field's duty has the field's numeric value (R55, R56). -/
theorem duty_toNat {hi lo : Byte} {a b : Nat} (ha : hexval hi = some a) (hb : hexval lo = some b) :
    (duty hi lo).toNat = 16 * a + b := by
  have h := clamp0_toNat (hex2_range (hex2_of_digits ha hb))
  rw [duty, hex2_of_digits ha hb]
  omega

/-- A field is flagged exactly when one of its bytes is no hexadecimal digit (R86, D9). -/
theorem clamped_hex2_iff (hi lo : Byte) : clamped (hex2 hi lo) = true ↔ hexval hi = none ∨ hexval lo = none := by
  rw [← hex2_eq_none]
  cases h : hex2 hi lo with
  | none => simp [clamped]
  | some v =>
    have hr := hex2_range h
    simp only [clamped, decide_eq_true_eq, reduceCtorEq, iff_false]
    omega

/-- A field of two digits is not flagged (R86). -/
theorem clamped_of_digits {hi lo : Byte} {a b : Nat} (ha : hexval hi = some a) (hb : hexval lo = some b) :
    clamped (hex2 hi lo) = false := by
  rw [Bool.eq_false_iff, Ne, clamped_hex2_iff, ha, hb]
  simp

/-- Settles O9: a field of digits by its value, any other by D9's rule. -/
theorem dutyFieldDecodes : Obligations.DutyFieldDecodes := by
  refine ⟨fun hi lo a b ha hb => ⟨duty_toNat ha hb, clamped_of_digits ha hb⟩, fun hi lo h => ⟨?_, ?_⟩⟩
  · rw [duty, (hex2_eq_none hi lo).mpr h]; rfl
  · exact (clamped_hex2_iff hi lo).mpr h

end Sys2Proof.Machine
end

section
/-! PROOFS. The meanings of CMD, CMDX and BADFRAME, and what each leaves (spec/41_parser.md R82 to R87). -/

namespace Sys2Proof.Machine

/-- Settles O10: one update of `AS`, the class, and the flags of the two duty fields. -/
theorem cmdReplacesCommand : Obligations.CmdReplacesCommand := by
  intro relay pwm2_dir pwm1_dir h2 l2 h1 l1 s
  simp only [exec, execCmd, flagDuties_eq, commit, duty]

/-- Settles O11: one update of `AS`, E_DIGIT's record, and the flags of the two duty fields. -/
theorem cmdxKeepsDutiesOnly : Obligations.CmdxKeepsDutiesOnly := by
  intro d h2 l2 h1 l1 s
  simp only [exec, execCmdx, flagDuties_eq, commit, raiseError, Status.record, duty]

/-- Settles O12: E_FRAMING's recovery, written out. -/
theorem badframeTakesFailSafePath : Obligations.BadframeTakesFailSafePath := by
  intro b0 b1 b2 b3 b4 b5 b6 s
  rw [exec_badframe, raiseError_framing]

/-- Settles O13: each of the three next states is the old one but for `AS`, `ST` and, for a BADFRAME, the queue. -/
theorem instructionFrame : Obligations.InstructionFrame := by
  intro i s t h
  cases i with
  | cmd relay pwm2_dir pwm1_dir h2 l2 h1 l1 =>
    rw [cmdReplacesCommand] at h; cases h; simp [Instr.frameClass]
  | cmdx d h2 l2 h1 l1 =>
    rw [cmdxKeepsDutiesOnly d] at h; cases h; simp [Instr.frameClass]
  | badframe b0 b1 b2 b3 b4 b5 b6 =>
    rw [badframeTakesFailSafePath] at h; cases h; simp [Instr.frameClass]

/-- Settles O14: the next states of O10 to O12. -/
theorem everyInstructionCompletes : Obligations.EveryInstructionCompletes := by
  intro i s
  cases i with
  | cmd => exact ⟨_, cmdReplacesCommand ..⟩
  | cmdx d => exact ⟨_, cmdxKeepsDutiesOnly d ..⟩
  | badframe => exact ⟨_, badframeTakesFailSafePath ..⟩

/-- An instruction reads neither the old `AS` nor the buffer: from a state that differs there it does the same, the
buffer carried along (R84, R85, R82). -/
theorem exec_of_other_AS_BUF {i : Instr} {s t : State} (h : exec i s = .next t) (a : ActuatorState) (m : Memory) :
    exec i { s with AS := a, BUF := m } = .next { t with BUF := m } := by
  cases i with
  | cmd => rw [cmdReplacesCommand] at h ⊢; cases h; rfl
  | cmdx d => rw [cmdxKeepsDutiesOnly d] at h ⊢; cases h; rfl
  | badframe => rw [badframeTakesFailSafePath] at h ⊢; cases h; rfl

/-- The command a frame with a good envelope carries (R84, R85). -/
def frameCommand (b1 b2 b3 b4 b5 : Byte) : ActuatorState :=
  { pwm1 := duty b4 b5, pwm2 := duty b2 b3, pwm1_dir := (digit b1).pwm1_dir,
    pwm2_dir := (digit b1).pwm2_dir, relay := (digit b1).relay }

/-- What a frame with a good envelope records: its class, E_DIGIT where its digit is none, and the flags of its duty
fields (R84 to R86). -/
def frameStatus (st : Status) (b1 b2 b3 b4 b5 : Byte) : Status :=
  { st with
    frame := if (digit b1).recognised then .cmd else .cmdx
    digit_unrec := if (digit b1).recognised then st.digit_unrec else true
    clamp1 := clamped (hex2 b4 b5)
    clamp2 := clamped (hex2 b2 b3) }

/-- A frame with a good envelope puts its command into `AS` and records itself in `ST`; an unrecognised digit gives
three false bools (R54, R84, R85). -/
theorem exec_decodeFrame_of_envelope {b0 b6 : Byte} (h : b0 = Config.HDR ∧ b6 = Config.FTR) (b1 b2 b3 b4 b5 : Byte)
    (s : State) :
    exec (decodeFrame b0 b1 b2 b3 b4 b5 b6) s =
      .next { s with AS := frameCommand b1 b2 b3 b4 b5, ST := frameStatus s.ST b1 b2 b3 b4 b5 } := by
  rw [decodeFrame_of_envelope h]
  by_cases hd : (digit b1).recognised = true
  · rw [if_pos hd, cmdReplacesCommand]
    simp only [frameCommand, frameStatus, if_pos hd, duty]
  · have hdef : digit b1 = ⟨false, false, false, false⟩ :=
      digit_of_not_recognised (mt (digit_recognised b1).mpr hd)
    rw [if_neg hd, cmdxKeepsDutiesOnly]
    simp [frameCommand, frameStatus, hdef, duty]

end Sys2Proof.Machine
end

section
/-! PROOFS. The operation PARSE (spec/41_parser.md R80 to R89). -/

namespace Sys2Proof.Machine

/-- Without a buffer PARSE has no behaviour (R80; notes/assumptions/11.md). -/
theorem parse_without_buffer {s : State} (hv : s.BUF_VALID = false) : parse s = .fault .parseWithoutBuffer := by
  simp [parse, hv]

/-- The head of the buffer is always some seven bytes (R13, R51). -/
theorem exists_frameIs (m : Memory) : ∃ b0 b1 b2 b3 b4 b5 b6, FrameIs m b0 b1 b2 b3 b4 b5 b6 :=
  ⟨_, _, _, _, _, _, _, rfl, rfl, rfl, rfl, rfl, rfl, rfl⟩

/-- With a buffer PARSE goes on, whatever the buffer holds (R80, R142). -/
theorem parse_with_buffer {s : State} (hv : s.BUF_VALID = true) : ∃ t, parse s = .next t := by
  obtain ⟨b0, b1, b2, b3, b4, b5, b6, hf⟩ := exists_frameIs s.BUF
  obtain ⟨t, ht⟩ := everyInstructionCompletes (decodeFrame b0 b1 b2 b3 b4 b5 b6) s
  exact ⟨_, parse_of_frame hv hf ht⟩

/-- On the block's turn a step in `P_PARSE` is PARSE (R14). -/
theorem step_parse {s : State} (ht : s.nextTurn = .block) (hp : s.PHASE = .parse) : step s = parse s.onTurn := by
  rw [step_block ht, blockStep, onTurn_PHASE, hp]

/-- A step in `P_PARSE` without a buffer stops (R80; notes/assumptions/11.md). -/
theorem step_parse_without_buffer {s : State} (ht : s.nextTurn = .block) (hp : s.PHASE = .parse)
    (hv : s.BUF_VALID = false) : step s = .fault .parseWithoutBuffer := by
  rw [step_parse ht hp, parse_without_buffer (by simpa using hv)]

/-- A step in `P_PARSE` runs the instruction of the seven bytes at the head of the buffer, then PARSE's two closing
lines (R80). -/
theorem step_parse_of_frame {s t : State} {b0 b1 b2 b3 b4 b5 b6 : Byte} (ht : s.nextTurn = .block)
    (hp : s.PHASE = .parse) (hv : s.BUF_VALID = true) (hf : FrameIs s.BUF b0 b1 b2 b3 b4 b5 b6)
    (he : exec (decodeFrame b0 b1 b2 b3 b4 b5 b6) s.onTurn = .next t) : step s = .next (endParse t) := by
  rw [step_parse ht hp, parse_of_frame (by simpa using hv) (by simpa using hf) he]

/-- Settles O16: the instruction completes, and PARSE closes. -/
theorem stepRunsDecodedInstruction : Obligations.StepRunsDecodedInstruction := by
  intro s b0 b1 b2 b3 b4 b5 b6 i ht hp hv hf hd
  obtain ⟨t, he⟩ := everyInstructionCompletes i s.onTurn
  rw [decode_seven] at hd
  cases hd
  rw [step_parse_of_frame ht hp hv hf he, he]
  rfl

/-- Seven bytes and more, written at the head of the buffer, are the frame there (R13, R32). -/
theorem frameIs_writeBytes (m : Memory) (b0 b1 b2 b3 b4 b5 b6 : Byte) (rest : List Byte) :
    FrameIs (Memory.writeBytes m 0 (b0 :: b1 :: b2 :: b3 :: b4 :: b5 :: b6 :: rest)) b0 b1 b2 b3 b4 b5 b6 := by
  have hread (k : Nat) (hk : k < 7) := Memory.read_writeBytes_zero_of_lt m
    (bs := b0 :: b1 :: b2 :: b3 :: b4 :: b5 :: b6 :: rest) (j := k) (by simp only [List.length_cons]; omega)
  exact ⟨Option.some.inj (hread 0 (by decide)), Option.some.inj (hread 1 (by decide)),
    Option.some.inj (hread 2 (by decide)), Option.some.inj (hread 3 (by decide)),
    Option.some.inj (hread 4 (by decide)), Option.some.inj (hread 5 (by decide)),
    Option.some.inj (hread 6 (by decide))⟩

/-- Settles O17: the word's bytes are the frame at the head of the buffer that `withFetchWord` writes. -/
theorem fetchWordIsRunNext : Obligations.FetchWordIsRunNext := by
  intro s w i hd
  have hf := frameIs_writeBytes s.BUF ((tableWord 56 w).extractLsb' 48 8) ((tableWord 56 w).extractLsb' 40 8)
    ((tableWord 56 w).extractLsb' 32 8) ((tableWord 56 w).extractLsb' 24 8) ((tableWord 56 w).extractLsb' 16 8)
    ((tableWord 56 w).extractLsb' 8 8) ((tableWord 56 w).extractLsb' 0 8) []
  refine stepRunsDecodedInstruction _ _ _ _ _ _ _ _ i rfl rfl rfl hf ?_
  simp only [decodeTableWord, frameBytes, decode_seven, Option.some.injEq] at hd
  rw [decode_seven, hd]

/-- Settles O19: the instruction run is that of the same seven bytes, and no instruction reads `AS` or the buffer. -/
theorem parseReadsFrameBytesOnly : Obligations.ParseReadsFrameBytesOnly := by
  intro s a m ht hp hm
  rcases Bool.eq_false_or_eq_true s.BUF_VALID with hv | hv
  · obtain ⟨b0, b1, b2, b3, b4, b5, b6, hf⟩ := exists_frameIs s.BUF
    obtain ⟨t, he⟩ := everyInstructionCompletes (decodeFrame b0 b1 b2 b3 b4 b5 b6) s.onTurn
    have hf' : FrameIs m b0 b1 b2 b3 b4 b5 b6 := by
      simpa only [FrameIs, hm _ (show 0 < 7 by decide), hm _ (show 1 < 7 by decide), hm _ (show 2 < 7 by decide),
        hm _ (show 3 < 7 by decide), hm _ (show 4 < 7 by decide), hm _ (show 5 < 7 by decide),
        hm _ (show 6 < 7 by decide)] using hf
    rw [step_parse_of_frame ht hp hv hf he,
      step_parse_of_frame (s := { s with AS := a, BUF := m }) ht hp hv hf' (exec_of_other_AS_BUF he a m)]
    rfl
  · rw [step_parse_without_buffer ht hp hv, step_parse_without_buffer (s := { s with AS := a, BUF := m }) ht hp hv]

/-- Settles O20: a bad envelope records the framing error alone; a good one records what its digit and its two fields
give. -/
theorem errorsOfOneFrame : Obligations.ErrorsOfOneFrame := by
  intro s b0 b1 b2 b3 b4 b5 b6 ht hp hv hst hf
  by_cases hb : b0 = Config.HDR ∧ b6 = Config.FTR
  · refine ⟨_, step_parse_of_frame ht hp hv hf (exec_decodeFrame_of_envelope hb ..), fun h => absurd hb h, fun _ => ?_⟩
    simp [frameStatus, hst, clamped_hex2_iff, ← digit_recognised, Status.cleared]
  · refine ⟨_, step_parse_of_frame ht hp hv hf (exec_decodeFrame_of_bad hb ..), fun _ => ?_, fun h => absurd h hb⟩
    simp [raiseError_framing, hst]

/-! ### The canonical encoder (R62) -/

/-- The canonical digits of a duty have its value (R55, R62). -/
theorem hex2_HEXCH (d : Byte) : hex2 (HEXCH (d.toNat / 16)) (HEXCH (d.toNat % 16)) = some (d.toNat : Int) := by
  have hd := d.isLt
  rw [hex2_of_digits (hexval_HEXCH _ (by omega)) (hexval_HEXCH _ (by omega))]
  congr 1
  omega

/-- The canonical digits of a duty decode to it (R56, R62). -/
theorem duty_HEXCH (d : Byte) : duty (HEXCH (d.toNat / 16)) (HEXCH (d.toNat % 16)) = d := by
  have hd := d.isLt
  apply BitVec.eq_of_toNat_eq
  rw [duty_toNat (hexval_HEXCH _ (by omega)) (hexval_HEXCH _ (by omega))]
  omega

/-- A digit that is no small letter is the canonical one of its value (R62). -/
theorem HEXCH_of_hexval {b : Byte} {n : Nat} (h : hexval b = some n) (hcap : b ≤ 0x46#8) : HEXCH n = b := by
  revert n
  revert b
  decide

/-- The canonical frame of a command carries it (R62). -/
theorem frameCommand_enc (c : ActuatorState) :
    frameCommand (digitChar c.relay c.pwm2_dir c.pwm1_dir) (HEXCH (c.pwm2.toNat / 16)) (HEXCH (c.pwm2.toNat % 16))
      (HEXCH (c.pwm1.toNat / 16)) (HEXCH (c.pwm1.toNat % 16)) = c := by
  simp only [frameCommand, duty_HEXCH, digit_digitChar]

/-- The canonical frame of a command is a CMD of which nothing is clamped (R62). -/
theorem frameStatus_enc (st : Status) (c : ActuatorState) :
    frameStatus st (digitChar c.relay c.pwm2_dir c.pwm1_dir) (HEXCH (c.pwm2.toNat / 16)) (HEXCH (c.pwm2.toNat % 16))
      (HEXCH (c.pwm1.toNat / 16)) (HEXCH (c.pwm1.toNat % 16))
      = { st with frame := .cmd, clamp1 := false, clamp2 := false } := by
  have hclamp (d : Byte) : clamped (some (d.toNat : Int)) = false := by
    have hd := d.isLt
    simp only [clamped, decide_eq_false_iff_not]
    omega
  simp [frameStatus, digit_digitChar, hex2_HEXCH, hclamp]

/-- The canonical digits of a field's duty have the field's value, and are the field's own where those are no small
letters (R55, R62). -/
theorem HEXCH_duty {hi lo : Byte} (hhi : hexval hi ≠ none) (hlo : hexval lo ≠ none) :
    hex2 (HEXCH ((duty hi lo).toNat / 16)) (HEXCH ((duty hi lo).toNat % 16)) = hex2 hi lo ∧
      (hi ≤ 0x46#8 → HEXCH ((duty hi lo).toNat / 16) = hi) ∧
      (lo ≤ 0x46#8 → HEXCH ((duty hi lo).toNat % 16) = lo) := by
  obtain ⟨a, ha⟩ := Option.ne_none_iff_exists'.mp hhi
  obtain ⟨b, hb⟩ := Option.ne_none_iff_exists'.mp hlo
  have hv := duty_toNat ha hb
  have hblt := hexval_lt hb
  have hdiv : (duty hi lo).toNat / 16 = a := by omega
  have hmod : (duty hi lo).toNat % 16 = b := by omega
  refine ⟨?_, fun h => hdiv ▸ HEXCH_of_hexval ha h, fun h => hmod ▸ HEXCH_of_hexval hb h⟩
  rw [hex2_HEXCH, hv, hex2_of_digits ha hb]
  rfl

/-- Settles O18: the command of the canonical frame is the command, and the canonical digits of a field's duty have the
field's value. -/
theorem canonicalFrameRoundTrip : Obligations.CanonicalFrameRoundTrip := by
  constructor
  · intro c s ht hp hv hread
    have hf : FrameIs s.BUF Config.HDR (digitChar c.relay c.pwm2_dir c.pwm1_dir) (HEXCH (c.pwm2.toNat / 16))
        (HEXCH (c.pwm2.toNat % 16)) (HEXCH (c.pwm1.toNat / 16)) (HEXCH (c.pwm1.toNat % 16)) Config.FTR :=
      ⟨Option.some.inj (hread 0 (by decide)), Option.some.inj (hread 1 (by decide)),
        Option.some.inj (hread 2 (by decide)), Option.some.inj (hread 3 (by decide)),
        Option.some.inj (hread 4 (by decide)), Option.some.inj (hread 5 (by decide)),
        Option.some.inj (hread 6 (by decide))⟩
    rw [step_parse_of_frame ht hp hv hf (exec_decodeFrame_of_envelope ⟨rfl, rfl⟩ ..), frameCommand_enc,
      frameStatus_enc]
    rfl
  · intro relay pwm2_dir pwm1_dir h2 l2 h1 l1 s t hh2 hl2 hh1 hl1 he
    rw [cmdReplacesCommand] at he
    cases he
    obtain ⟨v2, ch2, cl2⟩ := HEXCH_duty hh2 hl2
    obtain ⟨v1, ch1, cl1⟩ := HEXCH_duty hh1 hl1
    exact ⟨_, _, _, _, rfl, v2, v1, ch2, cl2, ch1, cl1⟩

end Sys2Proof.Machine
end

section
/-! PROOFS. The places of APPLY's sequence (spec/42_driver.md R101). -/

namespace Sys2Proof

/-- The places of the sequence but the last have a next one (R101). -/
theorem Endpoint.next_of_ne_duty2 {e : Endpoint} (h : e ≠ .duty2) : e.next = some (e.next.getD .dir1) := by
  cases e with
  | duty2 => exact absurd rfl h
  | _ => rfl

/-- The endpoints come round in fives (R101). -/
theorem Endpoint.index_next (e : Endpoint) : (e.next.getD .dir1).index = (e.index + 1) % 5 := by
  cases e <;> rfl

/-- An endpoint is its place in the sequence. -/
theorem Endpoint.index_inj {e f : Endpoint} : e.index = f.index ↔ e = f := by
  cases e <;> cases f <;> decide

/-- The sequence has five places. -/
theorem Endpoint.index_lt (e : Endpoint) : e.index < 5 := by
  cases e <;> decide

end Sys2Proof
end

section
/-! PROOFS. One step of each agent and of the block in each phase, as an equation of the next state
(spec/44_control_loop.md R121, R125). -/

namespace Sys2Proof.Machine

/-! ### The operation of each phase -/

/-- On the block's turn a step in `P_INIT` is INIT. -/
theorem step_init {s : State} (ht : s.nextTurn = .block) (hp : s.PHASE = .init) :
    step s = .next (initialise s.onTurn) := by
  rw [step_block ht, blockStep, onTurn_PHASE, hp]

/-- On the block's turn a step in `P_POLL` is POLL. -/
theorem step_poll {s : State} (ht : s.nextTurn = .block) (hp : s.PHASE = .poll) :
    step s = .next (poll s.onTurn) := by
  rw [step_block ht, blockStep, onTurn_PHASE, hp]

/-- On the block's turn a step in `P_SAMPLE` is SAMPLE. -/
theorem step_sample {s : State} (ht : s.nextTurn = .block) (hp : s.PHASE = .sample) :
    step s = .next (sample s.onTurn) := by
  rw [step_block ht, blockStep, onTurn_PHASE, hp]

/-- On the block's turn a step in `P_APPLY` is one write. -/
theorem step_apply {s : State} (ht : s.nextTurn = .block) (hp : s.PHASE = .apply) :
    step s = .next (applyWrite s.onTurn) := by
  rw [step_block ht, blockStep, onTurn_PHASE, hp]

/-- On the block's turn a step in `P_SLEEP` is SLEEP. -/
theorem step_sleep {s : State} (ht : s.nextTurn = .block) (hp : s.PHASE = .sleep) :
    step s = .next (sleep s.onTurn) := by
  rw [step_block ht, blockStep, onTurn_PHASE, hp]

/-- On the block's turn a step in `P_HALT` does nothing. -/
theorem step_halt {s : State} (ht : s.nextTurn = .block) (hp : s.PHASE = .halt) : step s = .next s.onTurn := by
  rw [step_block ht, blockStep, onTurn_PHASE, hp]

/-! ### POLL (R71) -/

/-- Settles O21: the block write and the read of POLL, for the bytes it counted. -/
theorem pollTakesOldestBytes : Obligations.PollTakesOldestBytes := by
  intro s ht hp hq
  obtain ⟨-, hlen⟩ := poll_count hq
  refine ⟨poll s.onTurn, step_poll ht hp, ?_⟩
  rw [poll_enough (by simpa using hq)]
  refine ⟨rfl, fun k hk => ?_, fun k hk => ?_, rfl, rfl, rfl, rfl, rfl, rfl, rfl, rfl, rfl, rfl, rfl⟩
  · rw [← List.getElem?_take_of_lt hk]
    exact Memory.read_writeBytes_zero_of_lt _ (hlen.symm ▸ hk)
  · exact Memory.read_writeBytes_zero_of_le _ (hlen.symm ▸ hk)

/-- Settles O22: the branch of POLL that reads nothing. -/
theorem pollShortKeepsEverything : Obligations.PollShortKeepsEverything := by
  intro s ht hp hq
  rw [step_poll ht hp, poll_short (by simpa using hq)]

/-- Settles O23: no more than the bytes counted are taken, so an append behind them makes no difference. -/
theorem countedReadCommutesWithArrival : Obligations.CountedReadCommutesWithArrival := by
  intro s bytes cap
  have hn : min (serAvail s) cap ≤ s.RXQ.length := Nat.min_le_left _ _
  constructor
  · simp only [serBytes, serArrive_RXQ, List.take_append_of_le_length hn]
  · simp only [serRead, serArrive, List.drop_append_of_le_length hn]

/-! ### SAMPLE (R111 to R114) -/

/-- The unit of 1/128 degree is exact: an angle is `(90/256)·raw` degrees (R112, D14). -/
theorem angle_degrees (raw : Raw16) : (angle raw : ℚ) / 128 = 90 / 256 * (raw.toInt : ℚ) := by
  rw [angle]
  push_cast
  ring

/-- An angle lies between those of the least and the greatest reading (R113). -/
theorem angle_range (raw : Raw16) :
    -11520 ≤ (angle raw : ℚ) / 128 ∧ (angle raw : ℚ) / 128 ≤ 11519.6484375 := by
  have hlo : (-32768 : ℚ) ≤ raw.toInt := by exact_mod_cast BitVec.le_toInt raw
  have hhi : (raw.toInt : ℚ) ≤ 32767 := by exact_mod_cast Int.le_of_lt_add_one (BitVec.toInt_lt (x := raw))
  rw [angle_degrees]
  constructor <;> linarith

/-- Settles O25: SAMPLE's state on three readings, and the range of an angle with its two ends. -/
theorem sampleStoresAngles : Obligations.SampleStoresAngles := by
  refine ⟨fun s rx ry rz ht hp hr => ⟨sample s.onTurn, step_sample ht hp, ?_⟩, angle_range, ?_, ?_⟩
  · rw [sample_ok (by simpa using hr)]
    simp [angle_degrees]
  · rw [show angle 0x8000#16 = -1474560 by decide]; norm_num
  · rw [show angle 0x7FFF#16 = 1474515 by decide]; norm_num

/-- Settles O26: SAMPLE's state on an error. -/
theorem sampleErrorStoresMarkedZero : Obligations.SampleErrorStoresMarkedZero := by
  intro s ht hp hr
  refine ⟨sample s.onTurn, step_sample ht hp, ?_⟩
  rw [sample_err (by simpa using hr)]
  simp

/-! ### One write of APPLY (R101, R103) -/

/-- What the endpoints present after the write of a field of `AS`: the new value where it is accepted (R103, D12). -/
theorem Endpoints.get_observe (ep : Endpoints) (a : ActuatorState) (e f : Endpoint) (r : WriteResult) :
    (ep.observe ⟨e, a.valueFor e, r⟩).get f = if f = e ∧ r = .ok then some (a.valueFor f) else ep.get f := by
  cases r with
  | ok =>
    simp only [Endpoints.observe, Endpoints.get_set_valueFor, and_true]
    split <;> simp_all
  | fail => simp [Endpoints.observe]

/-- Settles O27: the equation of one write, field by field. -/
theorem oneWriteOfApply : Obligations.OneWriteOfApply := by
  intro s ht hp
  refine ⟨applyWrite s.onTurn, step_apply ht hp, ?_⟩
  rw [applyWrite_eq]
  refine ⟨fun e => ?_, rfl, fun e => WriteFlags.get_set .., rfl, rfl, rfl, rfl, rfl, fun hd => ?_,
    fun hd => ⟨?_, ?_⟩, ?_⟩
  · exact Endpoints.get_observe ..
  · exact if_pos hd
  · exact (if_neg hd).trans hp
  · exact Endpoint.next_of_ne_duty2 hd
  · simp

/-! ### INIT and SLEEP (R123, R124) -/

/-- Settles O30: the two outcomes of INIT. -/
theorem initEntersLoopOrHalts : Obligations.InitEntersLoopOrHalts := by
  intro s ht hp
  refine ⟨initialise s.onTurn, step_init ht hp, ?_⟩
  rcases initialise_cases s.onTurn with ⟨hok, e⟩ | ⟨hok, e⟩
  · rw [e, ← onTurn_initOk, hok]; simp
  · rw [e, ← onTurn_initOk, hok]; simp [Config.INIT_EXIT_STATUS]

/-- Settles O31: the operation of `P_SLEEP`, written out. -/
theorem sleepChangesPhaseOnly : Obligations.SleepChangesPhaseOnly := fun _ ht hp => step_sleep ht hp

/-! ### The sender and the supervisor (R31, R125) -/

/-- On the sender's turn a step is its arrival. -/
theorem step_sender {s : State} {bytes : List Byte} (ht : s.nextTurn = .sender bytes) :
    step s = .next (serArrive bytes s.onTurn) := by
  simp only [step, ht]

/-- On the supervisor's turn between two operations a step is termination. -/
theorem step_supervisor {s : State} (ht : s.nextTurn = .supervisor) : step s = .next (terminate s.onTurn) := by
  simp only [step, ht]

/-- On the supervisor's turn inside an operation a step is termination there. -/
theorem step_supervisorInside {s : State} (ht : s.nextTurn = .supervisorInside) :
    step s = .next (terminateInside s.onTurn) := by
  simp only [step, ht]

/-- Settles O32: the sender's move, written out. -/
theorem senderAppendsAtTail : Obligations.SenderAppendsAtTail := fun _ _ ht => step_sender ht

/-- Settles O33: the supervisor's move between two operations, written out. -/
theorem terminationLeavesOutputs : Obligations.TerminationLeavesOutputs := fun _ ht => step_supervisor ht

/-- Termination inside a POLL falls after `ST` is cleared (R71, R125). -/
theorem terminateInside_poll {s : State} (hp : s.PHASE = .poll) :
    terminateInside s = { s with PHASE := .halt, ST := .cleared } := by
  rw [terminateInside, hp]; rfl

/-- Termination inside a PARSE of a BADFRAME falls after the flush (R125, D27). -/
theorem terminateInside_badframe {s : State} (hp : s.PHASE = .parse) (hb : holdsBadframe s = true) :
    terminateInside s = { s with PHASE := .halt, RXQ := [] } := by
  rw [terminateInside, hp]; simp only [hb, if_true]; rfl

/-- Termination inside any other operation is termination before it (R125). -/
theorem terminateInside_otherwise {s : State} (hpoll : s.PHASE ≠ .poll)
    (hparse : s.PHASE = .parse → ¬ holdsBadframe s = true) : terminateInside s = { s with PHASE := .halt } := by
  rcases terminateInside_cases s with e | ⟨hp, -⟩ | ⟨hp, hb, -⟩
  · exact e
  · exact absurd hp hpoll
  · exact absurd hb (hparse hp)

/-- Settles O34: the buffer holds a BADFRAME, so the queue is flushed and no more. -/
theorem terminationInsideFailSafePath : Obligations.TerminationInsideFailSafePath := by
  intro s b0 b1 b2 b3 b4 b5 b6 ht hp hv hf hbad
  obtain ⟨h0, -, -, -, -, -, h6⟩ := hf
  have hb : holdsBadframe s.onTurn = true := by
    refine (holdsBadframe_iff _).mpr ⟨hv, ?_⟩
    rw [onTurn_BUF, h0, h6, not_and_or]
    exact hbad
  rw [step_supervisorInside ht, terminateInside_badframe (s := s.onTurn) hp hb]

/-- Settles O35: no BADFRAME in the buffer, so but for a POLL nothing has happened. -/
theorem terminationInsideOtherOperations : Obligations.TerminationInsideOtherOperations := by
  intro s ht
  rw [step_supervisorInside ht]
  refine ⟨fun hp => ?_, fun hp hgood => ?_, fun hpoll hparse => ?_⟩
  · rw [terminateInside_poll (s := s.onTurn) hp]
  · have hb : ¬ holdsBadframe s.onTurn = true := by
      rw [holdsBadframe_iff, onTurn_BUF, onTurn_BUF_VALID]
      rintro ⟨hv, hbad⟩
      rcases hgood with hno | henv
      · rw [hno] at hv; cases hv
      · exact hbad henv
    rw [terminateInside_otherwise (by simp [hp]) (fun _ => hb)]
  · rw [terminateInside_otherwise (s := s.onTurn) hpoll (fun hp => absurd hp hparse)]

/-! ### Reset (R20) -/

/-- Settles O43: the registers of the reset state. -/
theorem resetRegisters : Obligations.ResetRegisters :=
  ⟨rfl, rfl, rfl, rfl, rfl, rfl, fun e => by cases e <;> rfl, fun _ => rfl, rfl⟩

/-- Settles O44: the buffer and the trace are empty, and no flag is set. -/
theorem invariantsHoldAtReset : Obligations.InvariantsHoldAtReset := by
  refine ⟨?_, ?_, rfl, ?_, ?_⟩
  · constructor <;> simp [State.reset]
  · constructor <;> simp [State.reset, Endpoint.index]
  · constructor <;> simp [State.reset, Status.cleared]
  · constructor <;> simp [State.reset]

end Sys2Proof.Machine
end

section
/-! PROOFS. Everything one step can do, agent by agent and phase by phase, said once as an inversion of `step`; who
may write, read or stop what follows from it (spec/10_state.md, spec/44_control_loop.md R121 to R125). -/

namespace Sys2Proof.Machine

/-- The moves of the machine from `s`, each with its guards and the state it leaves. -/
inductive Move (s : State) : State → Prop where
  | arrival (bytes : List Byte) (turn : s.nextTurn = .sender bytes) : Move s (serArrive bytes s.onTurn)
  | terminated (turn : s.nextTurn = .supervisor ∨ s.nextTurn = .supervisorInside) : Move s (terminate s.onTurn)
  | terminatedInPoll (turn : s.nextTurn = .supervisorInside) (phase : s.PHASE = .poll) :
      Move s { s.onTurn with PHASE := .halt, ST := .cleared }
  | terminatedInBadframe (turn : s.nextTurn = .supervisorInside) (phase : s.PHASE = .parse)
      (bad : holdsBadframe s = true) : Move s { s.onTurn with PHASE := .halt, RXQ := [] }
  | started (turn : s.nextTurn = .block) (phase : s.PHASE = .init) :
      Move s { drawInit s.onTurn with PHASE := .poll }
  | startFailed (turn : s.nextTurn = .block) (phase : s.PHASE = .init) :
      Move s { drawInit s.onTurn with PHASE := .halt, EXIT := some Config.INIT_EXIT_STATUS }
  | polled (turn : s.nextTurn = .block) (phase : s.PHASE = .poll) (enough : 7 ≤ s.RXQ.length) :
      Move s
        { s.onTurn with
          ST := .cleared
          BUF := Memory.writeBytes s.BUF 0 (s.RXQ.take (min s.RXQ.length Config.BUF_CAP))
          RXQ := s.RXQ.drop (min s.RXQ.length Config.BUF_CAP)
          BUF_LEN := min s.RXQ.length Config.BUF_CAP
          BUF_VALID := true
          PHASE := .parse }
  | polledShort (turn : s.nextTurn = .block) (phase : s.PHASE = .poll) :
      Move s { s.onTurn with ST := .cleared, BUF_VALID := false, PHASE := .sample }
  | accepted (turn : s.nextTurn = .block) (phase : s.PHASE = .parse) {b1 b2 b3 b4 b5 : Byte}
      (frame : FrameIs s.BUF Config.HDR b1 b2 b3 b4 b5 Config.FTR) :
      Move s (endParse { s.onTurn with AS := frameCommand b1 b2 b3 b4 b5, ST := frameStatus s.ST b1 b2 b3 b4 b5 })
  | rejected (turn : s.nextTurn = .block) (phase : s.PHASE = .parse) (bad : holdsBadframe s = true) :
      Move s (endParse (raiseError .framing s.onTurn))
  | sampled (turn : s.nextTurn = .block) (phase : s.PHASE = .sample) (tlm : Telemetry) :
      Move s
        { drawSensor s.onTurn with
          TLM := tlm
          ST := { s.ST with sensor_err := tlm.err }
          PHASE := .apply
          WRITE_POS := .dir1 }
  | wrote (turn : s.nextTurn = .block) (phase : s.PHASE = .apply) :
      Move s
        { drawWrite s.onTurn with
          EP := s.EP.observe ⟨s.WRITE_POS, s.AS.valueFor s.WRITE_POS, s.writeResult 0⟩
          OUT := s.OUT ++ [⟨s.WRITE_POS, s.AS.valueFor s.WRITE_POS, s.writeResult 0⟩]
          ST := { s.ST with wfail := s.ST.wfail.set s.WRITE_POS (s.writeResult 0 == .fail) }
          WRITE_POS := s.WRITE_POS.next.getD .dir1
          PHASE := if s.WRITE_POS = .duty2 then .sleep else .apply }
  | slept (turn : s.nextTurn = .block) (phase : s.PHASE = .sleep) : Move s (sleep s.onTurn)
  | halted (turn : s.nextTurn = .block) (phase : s.PHASE = .halt) : Move s s.onTurn

/-- What a PARSE that goes on did, by the envelope of its frame (R80, R81). -/
theorem move_of_parse {s t : State} (turn : s.nextTurn = .block) (phase : s.PHASE = .parse)
    (h : parse s.onTurn = .next t) : Move s t := by
  obtain ⟨b0, b1, b2, b3, b4, b5, b6, u, hv, hf, he, rfl⟩ := parse_cases h
  by_cases hb : b0 = Config.HDR ∧ b6 = Config.FTR
  · rw [exec_decodeFrame_of_envelope hb] at he
    obtain ⟨rfl, rfl⟩ := hb
    cases he
    exact .accepted turn phase hf
  · rw [exec_decodeFrame_of_bad hb] at he
    cases he
    refine .rejected turn phase ((holdsBadframe_iff s).mpr ⟨hv, ?_⟩)
    obtain ⟨h0, -, -, -, -, -, h6⟩ := hf
    rw [← h0, ← h6] at hb
    exact hb

/-- Every step that goes on is one of the moves. -/
theorem move_of_step {s t : State} (h : step s = .next t) : Move s t := by
  rcases step_cases h with ⟨ht, hb⟩ | ⟨bytes, ht, rfl⟩ | ⟨ht, rfl⟩ | ⟨ht, rfl⟩
  · rcases blockStep_cases hb with
      ⟨hp, rfl⟩ | ⟨hp, rfl⟩ | ⟨hp, hparse⟩ | ⟨hp, rfl⟩ | ⟨hp, rfl⟩ | ⟨hp, rfl⟩ | ⟨hp, rfl⟩
    · rcases initialise_cases s.onTurn with ⟨-, e⟩ | ⟨-, e⟩
      · rw [e]; exact .started ht hp
      · rw [e]; exact .startFailed ht hp
    · by_cases hq : 7 ≤ s.RXQ.length
      · rw [poll_enough (by simpa using hq)]; exact .polled ht hp hq
      · rw [poll_short (by simpa using hq)]; exact .polledShort ht hp
    · exact move_of_parse ht hp hparse
    · obtain ⟨tlm, e⟩ := sample_cases s.onTurn
      rw [e]; exact .sampled ht hp tlm
    · rw [applyWrite_eq, hp]; exact .wrote ht hp
    · exact .slept ht hp
    · exact .halted ht hp
  · exact .arrival bytes ht
  · exact .terminated (.inl ht)
  · rcases terminateInside_cases s.onTurn with e | ⟨hp, e⟩ | ⟨hp, hb, e⟩
    · rw [e]; exact .terminated (.inr ht)
    · rw [e]; exact .terminatedInPoll ht hp
    · rw [e]; exact .terminatedInBadframe ht hp hb

/-! ### What stops (R80, R142) -/

/-- A step goes on, but for a PARSE without a buffer. -/
theorem step_next_or_fault (s : State) :
    (∃ t, step s = .next t) ∨
      (s.nextTurn = .block ∧ s.PHASE = .parse ∧ s.BUF_VALID = false ∧ step s = .fault .parseWithoutBuffer) := by
  cases ht : s.nextTurn with
  | sender bytes => exact .inl ⟨_, step_sender ht⟩
  | supervisor => exact .inl ⟨_, step_supervisor ht⟩
  | supervisorInside => exact .inl ⟨_, step_supervisorInside ht⟩
  | block =>
    cases hp : s.PHASE with
    | init => exact .inl ⟨_, step_init ht hp⟩
    | poll => exact .inl ⟨_, step_poll ht hp⟩
    | sample => exact .inl ⟨_, step_sample ht hp⟩
    | apply => exact .inl ⟨_, step_apply ht hp⟩
    | sleep => exact .inl ⟨_, step_sleep ht hp⟩
    | halt => exact .inl ⟨_, step_halt ht hp⟩
    | parse =>
      cases hv : s.BUF_VALID with
      | false => exact .inr ⟨rfl, rfl, rfl, step_parse_without_buffer ht hp hv⟩
      | true =>
        obtain ⟨t, h⟩ := parse_with_buffer (s := s.onTurn) hv
        exact .inl ⟨t, (step_parse ht hp).trans h⟩

/-- Settles O41: the one step that does not go on. -/
theorem onlyParseWithoutFrameStops : Obligations.OnlyParseWithoutFrameStops := by
  constructor <;> intro s r h
  · rcases step_next_or_fault s with ⟨t, e⟩ | ⟨-, -, -, e⟩ <;> rw [e] at h <;> cases h
  · rcases step_next_or_fault s with ⟨t, e⟩ | ⟨ht, hp, hv, e⟩ <;> rw [e] at h <;> cases h
    exact ⟨ht, hp, hv, rfl⟩

/-- Settles O46: in a state whose buffer fits its phase a PARSE has its buffer. -/
theorem machineNeverStops : Obligations.MachineNeverStops := by
  intro s hs
  rcases step_next_or_fault s with h | ⟨-, hp, hv, -⟩
  · exact h
  · rw [hs.parseHasBuffer hp] at hv; cases hv

/-! ### The phase (R121) -/

/-- Settles O37: row by row, from the step of that agent in that phase. -/
theorem phaseTransitions : Obligations.PhaseTransitions := by
  intro s t h
  refine ⟨fun bytes ht => ?_, fun ht => ?_, fun ht =>
    ⟨fun hp => ?_, fun hp => ?_, fun hp => ?_, fun hp => ?_, fun hp => ?_, fun hp => ?_, fun hp => ?_⟩⟩
  · rw [step_sender ht] at h; cases h; rfl
  · rcases ht with ht | ht
    · rw [step_supervisor ht] at h; cases h; rfl
    · rw [step_supervisorInside ht] at h; cases h
      rcases terminateInside_cases s.onTurn with e | ⟨-, e⟩ | ⟨-, -, e⟩ <;> rw [e]
  · rw [step_init ht hp] at h; cases h
    rcases initialise_cases s.onTurn with ⟨hok, e⟩ | ⟨hok, e⟩ <;> rw [e, ← onTurn_initOk, hok] <;> rfl
  · rw [step_poll ht hp] at h; cases h
    by_cases hq : 7 ≤ s.RXQ.length
    · rw [poll_enough (by simpa using hq), if_pos hq]
    · rw [poll_short (by simpa using hq), if_neg hq]
  · rw [step_parse ht hp] at h
    obtain ⟨_, _, _, _, _, _, _, u, -, -, -, rfl⟩ := parse_cases h
    rfl
  · rw [step_sample ht hp] at h; cases h
    obtain ⟨tlm, e⟩ := sample_cases s.onTurn
    rw [e]
  · rw [step_apply ht hp] at h; cases h
    rw [applyWrite_eq, onTurn_PHASE, onTurn_WRITE_POS, hp]
  · rw [step_sleep ht hp] at h; cases h; rfl
  · rw [step_halt ht hp] at h; cases h; exact hp

/-- The two states agree but for bytes behind the queue, and turns taken: what a halted block shows. -/
structure HaltedAlike (s t : State) : Prop where
  phase : t.PHASE = .halt
  command : t.AS = s.AS
  buffer : t.BUF = s.BUF
  telemetry : t.TLM = s.TLM
  status : t.ST = s.ST
  endpoints : t.EP = s.EP
  trace : t.OUT = s.OUT
  exit : t.EXIT = s.EXIT
  queue : s.RXQ <+: t.RXQ

/-- From `P_HALT` every step goes on and lets only the sender's bytes in (R125). -/
theorem step_of_halt {s : State} (hp : s.PHASE = .halt) : ∃ t, step s = .next t ∧ HaltedAlike s t := by
  cases ht : s.nextTurn with
  | sender bytes =>
    exact ⟨_, step_sender ht, hp, rfl, rfl, rfl, rfl, rfl, rfl, rfl, List.prefix_append _ _⟩
  | supervisor =>
    exact ⟨_, step_supervisor ht, rfl, rfl, rfl, rfl, rfl, rfl, rfl, rfl, List.prefix_rfl⟩
  | supervisorInside =>
    refine ⟨_, step_supervisorInside ht, ?_⟩
    rw [terminateInside_otherwise (by simp [hp]) (by simp [hp])]
    exact ⟨rfl, rfl, rfl, rfl, rfl, rfl, rfl, rfl, List.prefix_rfl⟩
  | block =>
    exact ⟨_, step_halt ht hp, hp, rfl, rfl, rfl, rfl, rfl, rfl, rfl, List.prefix_rfl⟩

/-- Settles O36: by induction on the number of steps. -/
theorem haltIsForever : Obligations.HaltIsForever := by
  intro n
  induction n with
  | zero => exact fun s hp => ⟨s, rfl, hp, rfl, rfl, rfl, rfl, rfl, rfl, rfl, List.prefix_rfl⟩
  | succ n ih =>
    intro s hp
    obtain ⟨u, hu, halike⟩ := step_of_halt hp
    obtain ⟨t, ht, hphase, has, hbuf, htlm, hst, hep, hout, hexit, hq⟩ := ih u halike.phase
    exact ⟨t, by rw [steps_succ n hu, ht], hphase, has.trans halike.command, hbuf.trans halike.buffer,
      htlm.trans halike.telemetry, hst.trans halike.status, hep.trans halike.endpoints, hout.trans halike.trace,
      hexit.trans halike.exit, halike.queue.trans hq⟩

/-! ### Who writes what -/

/-- Settles O38: each move changes just the fields of its operation. -/
theorem eachOperationWritesItsOwn : Obligations.EachOperationWritesItsOwn := by
  intro s t h
  cases move_of_step h with
  | arrival bytes turn => simp [turn]
  | terminated turn => simp
  | terminatedInPoll turn phase => simp [turn, phase]
  | terminatedInBadframe turn phase bad => simp [turn, phase, bad]
  | started turn phase => simp
  | startFailed turn phase => simp [turn, phase]
  | polled turn phase enough => simp [turn, phase]
  | polledShort turn phase => simp [turn, phase]
  | accepted turn phase frame => simp [turn, phase]
  | rejected turn phase bad => simp [turn, phase, bad, raiseError_framing]
  | sampled turn phase tlm => simp [turn, phase]
  | wrote turn phase => simp [turn, phase]
  | slept turn phase => simp
  | halted turn phase => simp

/-! ### Who reads what -/

/-- A state with another command, status record and telemetry. -/
def State.relabel (s : State) (a : ActuatorState) (st : Status) (tlm : Telemetry) : State :=
  { s with AS := a, ST := st, TLM := tlm }

/-- INIT carries the three along. -/
theorem initialise_relabel (s : State) (a : ActuatorState) (st : Status) (tlm : Telemetry) :
    initialise (s.relabel a st tlm) = (initialise s).relabel a st tlm := by
  have hok : (s.relabel a st tlm).initOk = s.initOk := rfl
  have hdraw : drawInit (s.relabel a st tlm) = (drawInit s).relabel a st tlm := by
    simp only [drawInit, State.relabel]; split <;> rfl
  simp only [initialise, hok, hdraw]
  split <;> rfl

/-- POLL carries the command and the telemetry along and clears the status record. -/
theorem poll_relabel (s : State) (a : ActuatorState) (st : Status) (tlm : Telemetry) :
    poll (s.relabel a st tlm) = (poll s).relabel a (poll s).ST tlm := by
  by_cases hq : 7 ≤ s.RXQ.length
  · rw [poll_enough hq, poll_enough (s := s.relabel a st tlm) hq]; rfl
  · have hq' : s.RXQ.length < 7 := Nat.lt_of_not_le hq
    rw [poll_short hq', poll_short (s := s.relabel a st tlm) hq']; rfl

/-- SAMPLE carries the command along, overwrites the telemetry, and sets its own flag. -/
theorem sample_relabel (s : State) (a : ActuatorState) (st : Status) (tlm : Telemetry) :
    sample (s.relabel a st tlm) =
      (sample s).relabel a { st with sensor_err := (sample s).ST.sensor_err } (sample s).TLM := by
  have hdraw : drawSensor (s.relabel a st tlm) = (drawSensor s).relabel a st tlm := by
    simp only [drawSensor, State.relabel]; split <;> rfl
  cases hr : s.sensorResult with
  | ok rx ry rz => rw [sample_ok hr, sample_ok (s := s.relabel a st tlm) hr, hdraw]; rfl
  | err => rw [sample_err hr, sample_err (s := s.relabel a st tlm) hr, hdraw]; rfl

/-- Termination inside an operation carries the command and the telemetry along. -/
theorem terminateInside_relabel (s : State) (a : ActuatorState) (st : Status) (tlm : Telemetry) :
    terminateInside (s.relabel a st tlm) =
      (terminateInside s).relabel a (if s.PHASE = .poll then .cleared else st) tlm := by
  cases hp : s.PHASE with
  | poll => rw [terminateInside_poll hp, terminateInside_poll (s := s.relabel a st tlm) hp]; rfl
  | parse =>
    have hb : holdsBadframe (s.relabel a st tlm) = holdsBadframe s := rfl
    simp only [terminateInside, show (s.relabel a st tlm).PHASE = .parse from hp, hp, hb]
    split <;> rfl
  | _ => simp only [terminateInside, show (s.relabel a st tlm).PHASE = _ from hp, hp]; rfl

/-- But for PARSE and APPLY, a step carries the command along unread; what it makes of the status record and of the
telemetry has no effect on the rest. -/
theorem step_relabel {s t : State} (h : step s = .next t)
    (hn : ¬ (s.nextTurn = .block ∧ (s.PHASE = .parse ∨ s.PHASE = .apply))) :
    ∃ (k : Status → Status) (l : Telemetry → Telemetry), ∀ a st tlm,
      step (s.relabel a st tlm) = .next (t.relabel a (k st) (l tlm)) := by
  rcases step_cases h with ⟨ht, hb⟩ | ⟨bytes, ht, rfl⟩ | ⟨ht, rfl⟩ | ⟨ht, rfl⟩
  · rcases blockStep_cases hb with
      ⟨hp, rfl⟩ | ⟨hp, rfl⟩ | ⟨hp, -⟩ | ⟨hp, rfl⟩ | ⟨hp, -⟩ | ⟨hp, rfl⟩ | ⟨hp, rfl⟩
    · exact ⟨id, id, fun a st tlm => by
        rw [step_init (s := s.relabel a st tlm) ht hp]; exact congrArg _ (initialise_relabel s.onTurn a st tlm)⟩
    · exact ⟨fun _ => (poll s.onTurn).ST, id, fun a st tlm => by
        rw [step_poll (s := s.relabel a st tlm) ht hp]; exact congrArg _ (poll_relabel s.onTurn a st tlm)⟩
    · exact absurd ⟨ht, .inl hp⟩ hn
    · exact ⟨fun st => { st with sensor_err := (sample s.onTurn).ST.sensor_err }, fun _ => (sample s.onTurn).TLM,
        fun a st tlm => by
          rw [step_sample (s := s.relabel a st tlm) ht hp]; exact congrArg _ (sample_relabel s.onTurn a st tlm)⟩
    · exact absurd ⟨ht, .inr hp⟩ hn
    · exact ⟨id, id, fun a st tlm => step_sleep (s := s.relabel a st tlm) ht hp⟩
    · exact ⟨id, id, fun a st tlm => step_halt (s := s.relabel a st tlm) ht hp⟩
  · exact ⟨id, id, fun a st tlm => step_sender (s := s.relabel a st tlm) ht⟩
  · exact ⟨id, id, fun a st tlm => step_supervisor (s := s.relabel a st tlm) ht⟩
  · exact ⟨fun st => if s.PHASE = .poll then .cleared else st, id, fun a st tlm => by
      rw [step_supervisorInside (s := s.relabel a st tlm) ht]
      exact congrArg _ (terminateInside_relabel s.onTurn a st tlm)⟩

/-- Settles O39: no instruction reads `AS`, and the other steps carry it along. -/
theorem onlyApplyReadsCommand : Obligations.OnlyApplyReadsCommand := by
  refine fun s t a h => ⟨fun ⟨ht, hp⟩ => ?_, fun hn => ?_⟩
  · have hbuf : t.BUF = s.BUF := by
      by_contra hne
      obtain ⟨-, -, -, hwrites, -⟩ := eachOperationWritesItsOwn s t h
      rw [(hwrites (.inl hne)).2] at hp
      cases hp
    have hstep := parseReadsFrameBytesOnly s a s.BUF ht hp (fun _ _ => rfl)
    rw [h] at hstep
    exact hstep.trans (congrArg Host.Outcome.next (by rw [← hbuf]))
  · obtain ⟨k, l, hkl⟩ := step_relabel h hn
    have hst : t = t.relabel s.AS (k s.ST) (l s.TLM) := by
      have hself := hkl s.AS s.ST s.TLM
      rw [show s.relabel s.AS s.ST s.TLM = s from rfl, h] at hself
      exact Host.Outcome.next.inj hself
    have hk : k s.ST = t.ST := (congrArg State.ST hst).symm
    have hl : l s.TLM = t.TLM := (congrArg State.TLM hst).symm
    have hstep := hkl a s.ST s.TLM
    rw [hk, hl] at hstep
    exact hstep

/-- A write of APPLY carries the telemetry along, and of the status record sets its own flag. -/
theorem applyWrite_relabel (s : State) (st : Status) (tlm : Telemetry) :
    applyWrite (s.relabel s.AS st tlm) =
      (applyWrite s).relabel s.AS
        { st with wfail := st.wfail.set s.WRITE_POS (s.writeResult 0 == .fail) } tlm := by
  have hdraw : drawWrite (s.relabel s.AS st tlm) = (drawWrite s).relabel s.AS st tlm := by
    simp only [drawWrite, State.relabel]; split <;> rfl
  rw [applyWrite_eq, applyWrite_eq, hdraw]
  rfl

/-- Whatever the status record and the telemetry hold, a step does the same to the rest. -/
theorem step_relabel_status {s t : State} (h : step s = .next t) (st : Status) (tlm : Telemetry) :
    ∃ st' tlm', step (s.relabel s.AS st tlm) = .next (t.relabel t.AS st' tlm') := by
  by_cases hparse : s.nextTurn = .block ∧ s.PHASE = .parse
  · obtain ⟨ht, hp⟩ := hparse
    rw [step_parse ht hp] at h
    obtain ⟨b0, b1, b2, b3, b4, b5, b6, u, hv, hf, he, rfl⟩ := parse_cases h
    by_cases hb : b0 = Config.HDR ∧ b6 = Config.FTR
    · rw [exec_decodeFrame_of_envelope hb] at he
      cases he
      exact ⟨_, tlm, step_parse_of_frame (s := s.relabel s.AS st tlm) ht hp hv hf
        (exec_decodeFrame_of_envelope hb ..)⟩
    · rw [exec_decodeFrame_of_bad hb] at he
      cases he
      exact ⟨_, tlm, step_parse_of_frame (s := s.relabel s.AS st tlm) ht hp hv hf (exec_decodeFrame_of_bad hb ..)⟩
  · have has : t.AS = s.AS := not_not.mp (mt (eachOperationWritesItsOwn s t h).1 hparse)
    rw [has]
    by_cases happly : s.nextTurn = .block ∧ s.PHASE = .apply
    · obtain ⟨ht, hp⟩ := happly
      rw [step_apply ht hp] at h
      cases h
      exact ⟨_, tlm, (step_apply (s := s.relabel s.AS st tlm) ht hp).trans
        (congrArg Host.Outcome.next (applyWrite_relabel s.onTurn st tlm))⟩
    · obtain ⟨k, l, hkl⟩ := step_relabel h fun ⟨ht, hp⟩ =>
        hp.elim (fun hp => hparse ⟨ht, hp⟩) (fun hp => happly ⟨ht, hp⟩)
      exact ⟨k st, l tlm, hkl s.AS st tlm⟩

/-- Settles O40: both states stop, or both go on and differ where they differed. -/
theorem statusAndTelemetryFeedNothingBack : Obligations.StatusAndTelemetryFeedNothingBack := by
  intro s st tlm
  rcases step_next_or_fault s with ⟨t, h⟩ | ⟨ht, hp, hv, h⟩
  · obtain ⟨st', tlm', h'⟩ := step_relabel_status h st tlm
    rw [h, show step { s with ST := st, TLM := tlm } = _ from h']
    rfl
  · rw [h, step_parse_without_buffer (s := { s with ST := st, TLM := tlm }) ht hp hv]

end Sys2Proof.Machine
end

section
/-! PROOFS. The five invariants are kept by every move (spec/10_state.md R13, R16, R18; spec/42_driver.md R101;
spec/44_control_loop.md R124). -/

namespace Sys2Proof.Machine

/-! ### The buffer (R13, R73) -/

/-- A state with the buffer of one that has the invariant has it too, if it is valid no longer than before. -/
theorem BufferReady.of_same_buffer {s t : State} (hs : BufferReady s) (hbuf : t.BUF = s.BUF)
    (hlen : t.BUF_LEN = s.BUF_LEN)
    (hvalid : t.BUF_VALID = true → s.BUF_VALID = true ∧ (t.PHASE = .parse ∨ t.PHASE = .halt))
    (hparse : t.PHASE = .parse → t.BUF_VALID = true) : BufferReady t where
  canonical := hbuf ▸ hs.canonical
  inside := hbuf ▸ hs.inside
  lenInside := hlen ▸ hs.lenInside
  written := hbuf ▸ hlen ▸ hs.written
  validLen h := hlen ▸ hs.validLen (hvalid h).1
  parseHasBuffer := hparse
  validOnlyForParse h := (hvalid h).2

/-- Outside `P_PARSE` and `P_HALT` there is no buffer. -/
theorem BufferReady.not_valid {s : State} (hs : BufferReady s) (h1 : s.PHASE ≠ .parse) (h2 : s.PHASE ≠ .halt) :
    ¬ s.BUF_VALID = true :=
  fun hv => (hs.validOnlyForParse hv).elim h1 h2

/-- After a POLL the buffer holds the bytes just taken, at least a frame and no more than its capacity (R71). -/
theorem BufferReady.of_polled {s t : State} (hs : BufferReady s) (enough : 7 ≤ s.RXQ.length)
    (hbuf : t.BUF = Memory.writeBytes s.BUF 0 (s.RXQ.take (min s.RXQ.length Config.BUF_CAP)))
    (hlen : t.BUF_LEN = min s.RXQ.length Config.BUF_CAP) (hvalid : t.BUF_VALID = true) (hphase : t.PHASE = .parse) :
    BufferReady t := by
  obtain ⟨hmin, htake⟩ := poll_count enough
  have hcap : t.BUF_LEN ≤ Config.BUF_CAP := hlen ▸ Nat.min_le_right _ _
  refine ⟨hbuf ▸ Memory.wf_writeBytes 0 _ hs.canonical, fun c hc => ?_, hcap, fun k hk => ?_,
    fun _ => hlen ▸ hmin, fun _ => hvalid, fun _ => .inl hphase⟩
  · rw [hbuf] at hc
    rcases Memory.mem_writeBytes hc with ⟨-, hlt⟩ | hold
    · omega
    · exact hs.inside c hold
  · rw [hbuf, Memory.lookup_writeBytes_zero, if_pos (by omega)]
    exact ⟨_, List.getElem?_eq_getElem (by omega)⟩

/-- Settles O45: POLL writes the buffer and makes it valid, PARSE ends its validity, and no other move touches it. -/
theorem bufferReadyIsKept : Obligations.BufferReadyIsKept := by
  intro s t hs h
  have idle : s.PHASE ≠ .parse → s.PHASE ≠ .halt → ∀ {p : Prop}, s.BUF_VALID = true → p :=
    fun h1 h2 _ hv => absurd hv (hs.not_valid h1 h2)
  cases move_of_step h with
  | arrival bytes turn =>
    exact hs.of_same_buffer rfl rfl (fun hv => ⟨hv, hs.validOnlyForParse hv⟩) hs.parseHasBuffer
  | terminated turn => exact hs.of_same_buffer rfl rfl (fun hv => ⟨hv, .inr rfl⟩) nofun
  | terminatedInPoll turn phase => exact hs.of_same_buffer rfl rfl (fun hv => ⟨hv, .inr rfl⟩) nofun
  | terminatedInBadframe turn phase bad => exact hs.of_same_buffer rfl rfl (fun hv => ⟨hv, .inr rfl⟩) nofun
  | started turn phase =>
    exact hs.of_same_buffer (by simp) (by simp) (fun hv => idle (by simp [phase]) (by simp [phase]) (by simpa using hv))
      nofun
  | startFailed turn phase =>
    exact hs.of_same_buffer (by simp) (by simp) (fun hv => ⟨by simpa using hv, .inr rfl⟩) nofun
  | polled turn phase enough => exact hs.of_polled enough rfl rfl rfl rfl
  | polledShort turn phase => exact hs.of_same_buffer rfl rfl nofun nofun
  | accepted turn phase frame => exact hs.of_same_buffer rfl rfl nofun nofun
  | rejected turn phase bad => exact hs.of_same_buffer rfl rfl nofun nofun
  | sampled turn phase tlm =>
    exact hs.of_same_buffer (by simp) (by simp) (fun hv => idle (by simp [phase]) (by simp [phase]) (by simpa using hv))
      nofun
  | wrote turn phase =>
    refine hs.of_same_buffer (by simp) (by simp)
      (fun hv => idle (by simp [phase]) (by simp [phase]) (by simpa using hv)) fun hp => ?_
    split at hp <;> cases hp
  | slept turn phase => exact hs.of_same_buffer rfl rfl (idle (by simp [phase]) (by simp [phase])) nofun
  | halted turn phase =>
    exact hs.of_same_buffer rfl rfl (fun hv => ⟨hv, hs.validOnlyForParse hv⟩) hs.parseHasBuffer

/-! ### The output trace (R101, R170) -/

/-- A state with the trace and the place of one that has the invariant has it too, if it is at rest at `dir1`. -/
theorem TraceOrdered.of_same_trace {s t : State} (hs : TraceOrdered s) (hout : t.OUT = s.OUT)
    (hpos : t.WRITE_POS = s.WRITE_POS) (hrest : t.PHASE ≠ .apply → t.PHASE ≠ .halt → s.WRITE_POS = .dir1) :
    TraceOrdered t where
  inOrder := hout ▸ hs.inOrder
  place := hout ▸ hpos ▸ hs.place
  atRest h1 h2 := hpos.trans (hrest h1 h2)

/-- One write more, at the place where the sequencer stands, keeps the order (R101). -/
theorem TraceOrdered.of_wrote {s t : State} {w : WriteEvent} (hs : TraceOrdered s) (hout : t.OUT = s.OUT ++ [w])
    (hw : w.endpoint = s.WRITE_POS) (hpos : t.WRITE_POS = s.WRITE_POS.next.getD .dir1)
    (hphase : t.PHASE = if s.WRITE_POS = .duty2 then .sleep else .apply) : TraceOrdered t where
  inOrder k v hv := by
    rw [hout] at hv
    rcases Nat.lt_trichotomy k s.OUT.length with hk | rfl | hk
    · rw [List.getElem?_append_left hk] at hv
      exact hs.inOrder k v hv
    · rw [List.getElem?_concat_length] at hv
      cases hv
      rw [hw, hs.place]
    · rw [List.getElem?_eq_none (by simp; omega)] at hv
      cases hv
  place := by
    rw [hout, hpos, Endpoint.index_next, ← hs.place, List.length_append, List.length_singleton, Nat.mod_add_mod]
  atRest h1 _ := by
    by_cases hd : s.WRITE_POS = .duty2
    · rw [hpos, hd]; rfl
    · exact absurd (hphase.trans (if_neg hd)) h1

/-- Settles O47: APPLY writes at the place of the sequence, SAMPLE finds the sequence at its first place, and no other
move touches either. -/
theorem writeOrderIsKept : Obligations.WriteOrderIsKept := by
  intro s t hs h
  cases move_of_step h with
  | arrival bytes turn => exact hs.of_same_trace rfl rfl hs.atRest
  | terminated turn => exact hs.of_same_trace rfl rfl (fun _ h2 => absurd rfl h2)
  | terminatedInPoll turn phase => exact hs.of_same_trace rfl rfl (fun _ h2 => absurd rfl h2)
  | terminatedInBadframe turn phase bad => exact hs.of_same_trace rfl rfl (fun _ h2 => absurd rfl h2)
  | started turn phase =>
    exact hs.of_same_trace (by simp) (by simp) (fun _ _ => hs.atRest (by simp [phase]) (by simp [phase]))
  | startFailed turn phase => exact hs.of_same_trace (by simp) (by simp) (fun _ h2 => absurd rfl h2)
  | polled turn phase enough =>
    exact hs.of_same_trace rfl rfl (fun _ _ => hs.atRest (by simp [phase]) (by simp [phase]))
  | polledShort turn phase =>
    exact hs.of_same_trace rfl rfl (fun _ _ => hs.atRest (by simp [phase]) (by simp [phase]))
  | accepted turn phase frame =>
    exact hs.of_same_trace rfl rfl (fun _ _ => hs.atRest (by simp [phase]) (by simp [phase]))
  | rejected turn phase bad =>
    exact hs.of_same_trace rfl rfl (fun _ _ => hs.atRest (by simp [phase]) (by simp [phase]))
  | sampled turn phase tlm =>
    exact hs.of_same_trace (by simp) (hs.atRest (by simp [phase]) (by simp [phase])).symm (fun h1 _ => absurd rfl h1)
  | wrote turn phase => exact hs.of_wrote rfl rfl rfl rfl
  | slept turn phase => exact hs.of_same_trace rfl rfl (fun _ _ => hs.atRest (by simp [phase]) (by simp [phase]))
  | halted turn phase => exact hs.of_same_trace rfl rfl hs.atRest

/-! ### The endpoints (R18, R103) -/

/-- Settles O48: a write appends the event it observes, and no other move touches the endpoints or the trace. -/
theorem endpointsFollowTraceIsKept : Obligations.EndpointsFollowTraceIsKept := by
  intro s t hs h
  by_cases happly : s.nextTurn = .block ∧ s.PHASE = .apply
  · obtain ⟨ht, hp⟩ := happly
    rw [step_apply ht hp] at h
    cases h
    rw [EndpointsFollowTrace] at hs ⊢
    simp [applyWrite_eq, hs]
  · obtain ⟨-, hwrites, -⟩ := eachOperationWritesItsOwn s t h
    obtain ⟨hep, hout⟩ := not_or.mp (mt hwrites happly)
    rw [EndpointsFollowTrace, not_not.mp hep, not_not.mp hout]
    exact hs

/-! ### The status record (R16) -/

/-- A state with the status record of one that has the invariant has it too, if its phase asks no more of it. -/
theorem StatusConsistent.of_same_status {s t : State} (hs : StatusConsistent s) (hst : t.ST = s.ST)
    (hparse : t.PHASE = .parse → s.ST = .cleared)
    (hsensor : t.PHASE = .apply ∨ t.PHASE = .sleep → s.ST.sensor_err = t.TLM.err) : StatusConsistent t where
  digit := hst ▸ hs.digit
  clamps := hst ▸ hs.clamps
  clearBeforeParse hp := hst.trans (hparse hp)
  sensor hp := hst ▸ hsensor hp

/-- Settles O49: POLL clears the record, PARSE writes a class with its flags into the cleared record, SAMPLE and APPLY
set their own flags. -/
theorem statusConsistencyIsKept : Obligations.StatusConsistencyIsKept := by
  intro s t hs h
  cases move_of_step h with
  | arrival bytes turn => exact hs.of_same_status rfl hs.clearBeforeParse hs.sensor
  | terminated turn => exact hs.of_same_status rfl nofun nofun
  | terminatedInPoll turn phase => constructor <;> simp [Status.cleared]
  | terminatedInBadframe turn phase bad => exact hs.of_same_status rfl nofun nofun
  | started turn phase => exact hs.of_same_status (by simp) nofun nofun
  | startFailed turn phase => exact hs.of_same_status (by simp) nofun nofun
  | polled turn phase enough => constructor <;> simp [Status.cleared]
  | polledShort turn phase => constructor <;> simp [Status.cleared]
  | @accepted turn phase b1 b2 b3 b4 b5 frame =>
    have hclear := hs.clearBeforeParse phase
    cases hd : (digit b1).recognised <;> constructor <;> simp [frameStatus, hclear, Status.cleared, hd]
  | rejected turn phase bad =>
    have hclear := hs.clearBeforeParse phase
    constructor <;> simp [raiseError_framing, hclear, Status.cleared]
  | sampled turn phase tlm => exact ⟨hs.digit, hs.clamps, nofun, fun _ => rfl⟩
  | wrote turn phase =>
    refine ⟨hs.digit, hs.clamps, fun hp => ?_, fun _ => ?_⟩
    · dsimp only at hp
      split at hp <;> cases hp
    · simpa using hs.sensor (.inl phase)
  | slept turn phase => exact hs.of_same_status rfl nofun nofun
  | halted turn phase => exact hs.of_same_status rfl hs.clearBeforeParse hs.sensor

/-! ### Before the loop, and after a failed start (R124, R164) -/

/-- A block that runs has not failed to start, so a step that stays in the run leaves nothing to show. -/
theorem StartUp.of_running {s t : State} (hs : StartUp s) (hrun : s.PHASE ≠ .halt) (hinit : t.PHASE ≠ .init)
    (hexit : t.EXIT = s.EXIT) : StartUp t := by
  have hnone : t.EXIT = none := hexit.trans (not_not.mp fun hne => hrun (hs.exited hne).1)
  exact ⟨fun h => h.elim (absurd · hinit) (absurd hnone), fun h => absurd hnone h⟩

/-- A step that touches none of the fields and does not leave `P_HALT` keeps the invariant. -/
theorem StartUp.of_untouched {s t : State} (hs : StartUp s) (hinit : t.PHASE = .init → s.PHASE = .init)
    (hhalt : s.PHASE = .halt → t.PHASE = .halt) (hexit : t.EXIT = s.EXIT) (has : t.AS = s.AS) (hout : t.OUT = s.OUT)
    (hep : t.EP = s.EP) (hbuf : t.BUF = s.BUF) : StartUp t where
  untouched h := by
    rw [has, hout, hep, hbuf]
    exact hs.untouched (h.imp hinit (hexit ▸ ·))
  exited h := by
    rw [hexit] at h ⊢
    exact (hs.exited h).imp_left hhalt

/-- Settles O50: a failed start leaves what INIT found, and while the block runs no start has failed. -/
theorem startUpIsKept : Obligations.StartUpIsKept := by
  intro s t hs h
  cases move_of_step h with
  | arrival bytes turn => exact hs.of_untouched id id rfl rfl rfl rfl rfl
  | terminated turn => exact hs.of_untouched nofun (fun _ => rfl) rfl rfl rfl rfl rfl
  | terminatedInPoll turn phase => exact hs.of_untouched nofun (fun _ => rfl) rfl rfl rfl rfl rfl
  | terminatedInBadframe turn phase bad => exact hs.of_untouched nofun (fun _ => rfl) rfl rfl rfl rfl rfl
  | started turn phase => exact hs.of_running (by simp [phase]) nofun (by simp)
  | startFailed turn phase =>
    exact ⟨fun _ => by simpa using hs.untouched (.inl phase), fun _ => ⟨rfl, by simp [Config.INIT_EXIT_STATUS]⟩⟩
  | polled turn phase enough => exact hs.of_running (by simp [phase]) nofun rfl
  | polledShort turn phase => exact hs.of_running (by simp [phase]) nofun rfl
  | accepted turn phase frame => exact hs.of_running (by simp [phase]) nofun rfl
  | rejected turn phase bad => exact hs.of_running (by simp [phase]) nofun rfl
  | sampled turn phase tlm => exact hs.of_running (by simp [phase]) nofun (by simp)
  | wrote turn phase =>
    refine hs.of_running (by simp [phase]) (fun hp => ?_) (by simp)
    dsimp only at hp
    split at hp <;> cases hp
  | slept turn phase => exact hs.of_running (by simp [phase]) nofun rfl
  | halted turn phase => exact hs.of_untouched id id rfl rfl rfl rfl rfl

end Sys2Proof.Machine
end

section
/-! PROOFS. Runs in which the sender's turns lie between the block's moves: a whole APPLY, and the cycle's work from
SAMPLE on (spec/42_driver.md R101 to R105, spec/44_control_loop.md R128 to R130). -/

namespace Sys2Proof.Machine

/-! ### Splitting a run at a move of the block -/

/-- What is undisturbed stays so as its turns are taken. -/
theorem State.Undisturbed.of_drop {s u : State} (hs : s.Undisturbed) {a : Nat}
    (h : u.ENV.turns = s.ENV.turns.drop a) : u.Undisturbed :=
  fun v hv => hs v (List.mem_of_mem_drop (h ▸ hv))

/-- Where no turn is listed nothing terminates. -/
theorem State.undisturbed_of_turns_nil {s : State} (h : s.ENV.turns = []) : s.Undisturbed :=
  fun _ hv => absurd (h ▸ hv) List.not_mem_nil

/-- A number of turns with moves beyond the turn of move `m` reaches beyond that turn. -/
theorem State.BlockMove.split {s u : State} {m i r n : Nat} (hi : s.BlockMove m i)
    (hu : u.ENV.turns = s.ENV.turns.drop (i + 1)) (hn : s.blockMoves n = m + 1 + r) :
    ∃ n', n = i + 1 + n' ∧ u.blockMoves n' = r := by
  have hle : i + 1 ≤ n := by
    by_contra hlt
    obtain ⟨d, rfl⟩ := Nat.exists_eq_add_of_le (show n ≤ i by omega)
    have hmono := s.blockMoves_mono n d
    rw [hi.2] at hmono
    omega
  obtain ⟨n', rfl⟩ := Nat.exists_eq_add_of_le hle
  refine ⟨n', rfl, ?_⟩
  rw [State.blockMoves_add s u (i + 1) n' hu, hi.succ] at hn
  omega

/-- A later move, counted from the turn after move `m`. -/
theorem State.BlockMove.split_move {s u : State} {m i r j : Nat} (hi : s.BlockMove m i)
    (hu : u.ENV.turns = s.ENV.turns.drop (i + 1)) (hj : s.BlockMove (m + 1 + r) j) :
    ∃ j', j = i + 1 + j' ∧ u.BlockMove r j' := by
  obtain ⟨j', rfl, hmoves⟩ := hi.split hu hj.2
  refine ⟨j', rfl, ?_, hmoves⟩
  rw [← hj.1, State.turnAt, State.turnAt, hu, List.getElem?_drop]

/-- Arrivals from `i` on are those up to `j` and those after it. -/
theorem State.arrived_append (s : State) {i j n : Nat} (hij : i ≤ j) (hjn : j ≤ n) :
    s.arrived i n = s.arrived i j ++ s.arrived j n := by
  obtain ⟨a, rfl⟩ := Nat.exists_eq_add_of_le hij
  obtain ⟨b, rfl⟩ := Nat.exists_eq_add_of_le hjn
  have hsplit : s.ENV.turns.drop (i + a) = (s.ENV.turns.drop i).drop a := by rw [List.drop_drop]
  rw [Nat.add_assoc, State.arrived_drop s { s with ENV := { s.ENV with turns := s.ENV.turns.drop i } } i (a + b) rfl,
    State.arrived_drop s { s with ENV := { s.ENV with turns := s.ENV.turns.drop i } } i a rfl, ← Nat.add_assoc,
    State.arrived_drop s { s with ENV := { s.ENV with turns := s.ENV.turns.drop (i + a) } } (i + a) b rfl,
    State.arrived_add _ { s with ENV := { s.ENV with turns := s.ENV.turns.drop (i + a) } } a b hsplit]

/-- Nothing arrives in a turn of the block. -/
theorem State.BlockMove.arrived {s : State} {m i : Nat} (hi : s.BlockMove m i) : s.arrived i (i + 1) = [] := by
  rw [State.arrived_drop s { s with ENV := { s.ENV with turns := s.ENV.turns.drop i } } i 1 rfl]
  refine (State.one_block ?_).2
  rw [State.turnAt_drop s _ i rfl, hi.1]

/-- The state with no turn listed. -/
def State.quiet (s : State) : State := { s with ENV := { s.ENV with turns := [] } }

/-- A run outside POLL and PARSE is the quiet run of the block's moves, with what arrived behind the queue. -/
theorem steps_outside {s : State} (hu : s.Undisturbed) (n : Nat)
    (hp : ∀ k d, k < s.blockMoves n → steps k s.quiet = .next d → d.PHASE ≠ .poll ∧ d.PHASE ≠ .parse) :
    ∃ d, steps (s.blockMoves n) s.quiet = .next d ∧
      steps n s = .next (d.lift (s.arrived 0 n) (s.ENV.turns.drop n)) := by
  have hlift : s.quiet.lift [] s.ENV.turns = s := by simp [State.lift, State.quiet]
  obtain ⟨d, hd, -, hrun⟩ := steps_lift n (c := s.quiet) [] s.ENV.turns rfl (hlift.symm ▸ hu) (hlift.symm ▸ hp)
  rw [hlift] at hd hrun
  exact ⟨d, hd, hrun⟩

/-! ### A whole APPLY (R101 to R105) -/

/-- The endpoint at a place of the write order. -/
theorem writeOrder_getElem? (e : Endpoint) : writeOrder[e.index]? = some e := by
  cases e <;> rfl

/-- The event of an APPLY that begins in `c`, at an endpoint. -/
def State.eventAt (c : State) (e : Endpoint) : WriteEvent := ⟨e, c.AS.valueFor e, c.writeResult e.index⟩

/-- The state `t` after the first `j` writes of an APPLY that begins in `c`. -/
structure WritesDone (c : State) (j : Nat) (t : State) : Prop where
  command : t.AS = c.AS
  phase : t.PHASE = if j = 5 then .sleep else .apply
  place : j < 5 → t.WRITE_POS.index = j
  trace : t.OUT = c.OUT ++ (writeOrder.take j).map c.eventAt
  endpoints : ∀ e, t.EP.get e =
    if e.index < j ∧ c.writeResult e.index = .ok then some (c.AS.valueFor e) else c.EP.get e
  flags : ∀ e, t.ST.wfail.get e = if e.index < j then c.writeResult e.index == .fail else c.ST.wfail.get e
  telemetry : t.TLM = c.TLM
  queue : t.RXQ = c.RXQ
  buffer : t.BUF = c.BUF
  turns : t.ENV.turns = c.ENV.turns
  results : ∀ k, t.writeResult k = c.writeResult (j + k)

/-- At the start of an APPLY no write is done. -/
theorem WritesDone.zero {c : State} (hp : c.PHASE = .apply) (hw : c.WRITE_POS = .dir1) : WritesDone c 0 c where
  command := rfl
  phase := hp
  place _ := by rw [hw]; rfl
  trace := by simp
  endpoints e := by simp
  flags e := by simp
  telemetry := rfl
  queue := rfl
  buffer := rfl
  turns := rfl
  results k := by rw [Nat.zero_add]

/-- One write more. -/
theorem WritesDone.succ {c t : State} {j : Nat} (h : WritesDone c j t) (hj : j < 5) :
    WritesDone c (j + 1) (applyWrite t) := by
  have hplace : t.WRITE_POS.index = j := h.place hj
  have hres : t.writeResult 0 = c.writeResult t.WRITE_POS.index := by rw [h.results, hplace, Nat.add_zero]
  have hlast : t.WRITE_POS = .duty2 ↔ j + 1 = 5 := by
    rw [← Endpoint.index_inj, hplace, Endpoint.index]
    omega
  have hbefore (e : Endpoint) : e.index < j + 1 ↔ e.index < j ∨ e = t.WRITE_POS := by
    rw [← Endpoint.index_inj, hplace]
    omega
  rw [applyWrite_eq]
  refine ⟨by simpa using h.command, ?_, fun hj' => ?_, ?_, fun e => ?_, fun e => ?_, by simpa using h.telemetry,
    by simpa using h.queue, by simpa using h.buffer, by simpa using h.turns, fun k => ?_⟩
  · simp only [hlast, h.phase, if_neg (Nat.ne_of_lt hj)]
  · show (t.WRITE_POS.next.getD .dir1).index = j + 1
    rw [Endpoint.index_next, hplace]
    omega
  · have htake : writeOrder.take (j + 1) = writeOrder.take j ++ [t.WRITE_POS] := by
      rw [List.take_add_one, ← hplace, writeOrder_getElem?]
      rfl
    simp only [htake, h.trace, h.command, hres, List.map_append, List.append_assoc, List.map_singleton, State.eventAt]
  · rw [Endpoints.get_observe, h.endpoints, h.command, hres]
    by_cases he : e = t.WRITE_POS
    · subst he; simp [hplace]
    · simp [hbefore, he]
  · rw [WriteFlags.get_set, h.flags, hres]
    by_cases he : e = t.WRITE_POS
    · subst he; simp [hbefore]
    · simp [hbefore, he]
  · show (drawWrite t).writeResult k = _
    rw [drawWrite_writeResult, h.results]
    congr 1
    omega

/-- The writes of an APPLY with nothing between them. -/
theorem steps_apply {c : State} (hc : c.ENV.turns = []) (hp : c.PHASE = .apply) (hw : c.WRITE_POS = .dir1) (j : Nat)
    (hj : j ≤ 5) : ∃ t, steps j c = .next t ∧ WritesDone c j t := by
  induction j with
  | zero => exact ⟨c, rfl, .zero hp hw⟩
  | succ j ih =>
    obtain ⟨t, ht, hdone⟩ := ih (by omega)
    have hquiet : t.ENV.turns = [] := hdone.turns.trans hc
    have hphase : t.PHASE = .apply := hdone.phase.trans (if_neg (by omega))
    refine ⟨applyWrite t, ?_, hdone.succ (by omega)⟩
    rw [steps_add j 1 ht, steps_succ 0 (step_apply (nextTurn_of_turns_nil hquiet) hphase), onTurn_of_turns_nil hquiet,
      steps_zero]

/-- Settles O28: the quiet run of `j` writes, with what arrived behind the queue. -/
theorem applyWritesInOrder : Obligations.ApplyWritesInOrder := by
  intro s n j hu hp hw hn hj
  have hrun := steps_apply (c := s.quiet) rfl hp hw
  obtain ⟨d, hd, hs⟩ := steps_outside hu n fun k d hk hd => by
    obtain ⟨t, ht, hdone⟩ := hrun k (by omega)
    rw [ht] at hd
    cases hd
    rw [hdone.phase, if_neg (by omega)]
    simp
  obtain ⟨t, ht, hdone⟩ := hrun j hj
  rw [hn, ht] at hd
  cases hd
  exact ⟨_, hs, hdone.command, hdone.phase, hdone.trace, hdone.endpoints, hdone.flags, hdone.telemetry,
    congrArg (· ++ _) hdone.queue, hdone.buffer⟩

end Sys2Proof.Machine
end

section
/-! PROOFS. Whole cycles of the loop, whatever arrives meanwhile (spec/40_receiver.md R71, spec/44_control_loop.md
R128 to R130). -/

namespace Sys2Proof.Machine

/-! ### From SAMPLE to the end of the cycle's APPLY -/

@[simp] theorem sample_AS (s : State) : (sample s).AS = s.AS := by
  obtain ⟨tlm, e⟩ := sample_cases s; rw [e]; simp

@[simp] theorem sample_PHASE (s : State) : (sample s).PHASE = .apply := by
  obtain ⟨tlm, e⟩ := sample_cases s; rw [e]

@[simp] theorem sample_WRITE_POS (s : State) : (sample s).WRITE_POS = .dir1 := by
  obtain ⟨tlm, e⟩ := sample_cases s; rw [e]

@[simp] theorem sample_BUF (s : State) : (sample s).BUF = s.BUF := by
  obtain ⟨tlm, e⟩ := sample_cases s; rw [e]; simp

@[simp] theorem sample_RXQ (s : State) : (sample s).RXQ = s.RXQ := by
  obtain ⟨tlm, e⟩ := sample_cases s; rw [e]; simp

@[simp] theorem sample_OUT (s : State) : (sample s).OUT = s.OUT := by
  obtain ⟨tlm, e⟩ := sample_cases s; rw [e]; simp

@[simp] theorem sample_turns (s : State) : (sample s).ENV.turns = s.ENV.turns := by
  obtain ⟨tlm, e⟩ := sample_cases s; rw [e]; simp

/-- SAMPLE and then `j` writes, with nothing between them. -/
theorem steps_sample_apply {c : State} (hc : c.ENV.turns = []) (hp : c.PHASE = .sample) {j : Nat} (hj : j ≤ 5) :
    ∃ t, steps (j + 1) c = .next t ∧ WritesDone (sample c) j t := by
  obtain ⟨t, ht, hdone⟩ := steps_apply (c := sample c) (by simp [hc]) (by simp) (by simp) j hj
  have hstep := step_sample (nextTurn_of_turns_nil hc) hp
  rw [onTurn_of_turns_nil hc] at hstep
  exact ⟨t, by rw [steps_succ j hstep, ht], hdone⟩

/-- SAMPLE and then `j` writes, with what arrived behind the queue. -/
theorem steps_sample_apply_busy {u : State} (hu : u.Undisturbed) (hp : u.PHASE = .sample) {n j : Nat} (hj : j ≤ 5)
    (hn : u.blockMoves n = j + 1) :
    ∃ t, WritesDone (sample u.quiet) j t ∧ steps n u = .next (t.lift (u.arrived 0 n) (u.ENV.turns.drop n)) := by
  obtain ⟨d, hd, hs⟩ := steps_outside hu n fun k d hk hd => by
    cases k with
    | zero => cases hd; simp [State.quiet, hp]
    | succ k =>
      obtain ⟨t, ht, hdone⟩ := steps_sample_apply (c := u.quiet) rfl hp (j := k) (by omega)
      rw [ht] at hd
      cases hd
      rw [hdone.phase, if_neg (by omega)]
      simp
  obtain ⟨t, ht, hdone⟩ := steps_sample_apply (c := u.quiet) rfl hp hj
  rw [hn, ht] at hd
  cases hd
  exact ⟨_, hdone, hs⟩

/-- The state `t` at the end of an APPLY, `n` turns after the state `u` in which the cycle's SAMPLE is next. -/
structure CycleApplied (u : State) (n : Nat) (t : State) : Prop where
  phase : t.PHASE = .sleep
  command : t.AS = u.AS
  queue : t.RXQ = u.RXQ ++ u.arrived 0 n
  buffer : t.BUF = u.BUF
  turns : t.ENV.turns = u.ENV.turns.drop n
  trace : ∃ events, t.OUT = u.OUT ++ events ∧
    events.map (fun w => (w.endpoint, w.value)) = writeOrder.map (fun e => (e, u.AS.valueFor e))
  endpoints : ∀ m v, u.blockMoves m = 1 → steps m u = .next v → (∀ k, k < 5 → v.writeResult k = .ok) →
    ∀ e, t.EP.get e = some (u.AS.valueFor e)

/-- From SAMPLE six moves end the cycle's APPLY. -/
theorem cycleApplied_of_sample {u : State} (hu : u.Undisturbed) (hp : u.PHASE = .sample) {n : Nat}
    (hn : u.blockMoves n = 6) : ∃ t, steps n u = .next t ∧ CycleApplied u n t := by
  obtain ⟨t, hdone, hs⟩ := steps_sample_apply_busy hu hp (j := 5) (by omega) hn
  have has : (sample u.quiet).AS = u.AS := sample_AS _
  refine ⟨_, hs, hdone.phase, hdone.command.trans has, ?_, hdone.buffer.trans (sample_BUF _), rfl,
    ⟨writeOrder.map (sample u.quiet).eventAt, ?_, ?_⟩, fun m v hm hv hok e => ?_⟩
  · exact congrArg (· ++ _) (hdone.queue.trans (sample_RXQ _))
  · exact hdone.trace.trans (congrArg (· ++ _) (sample_OUT _))
  · rw [List.map_map, ← has]
    rfl
  · obtain ⟨d, hd, hs'⟩ := steps_sample_apply_busy hu hp (j := 0) (by omega) hm
    rw [hv] at hs'
    cases hs'
    have hres : (sample u.quiet).writeResult e.index = .ok := by
      rw [← hok e.index e.index_lt, ← Nat.zero_add e.index, ← hd.results]
      simp [State.writeResult, State.lift]
    exact (hdone.endpoints e).trans (by rw [if_pos ⟨e.index_lt, hres⟩, has])

/-! ### From POLL to the end of PARSE -/

/-- The run up to and with the next POLL. -/
theorem steps_to_poll {s : State} {i : Nat} (hu : s.Undisturbed) (hp : s.PHASE = .poll) (hi : s.BlockMove 0 i) :
    steps (i + 1) s = .next (poll (s.lift (s.arrived 0 i) (s.ENV.turns.drop (i + 1)))) := by
  obtain ⟨ht, hrun⟩ := steps_to_move hu hi
  rw [hrun, step_poll ht hp, State.onTurn_lift, List.tail_drop]

/-- The run up to and with the next PARSE. -/
theorem steps_to_parse {s : State} {j : Nat} (hu : s.Undisturbed) (hp : s.PHASE = .parse) (hj : s.BlockMove 0 j) :
    steps (j + 1) s = parse (s.lift (s.arrived 0 j) (s.ENV.turns.drop (j + 1))) := by
  obtain ⟨ht, hrun⟩ := steps_to_move hu hj
  rw [hrun, step_parse ht hp, State.onTurn_lift, List.tail_drop]

/-- What the PARSE of turn `j` finds after the POLL of turn `i`. -/
def State.atParse (s : State) (i j : Nat) : State :=
  (poll (s.lift (s.arrived 0 i) (s.ENV.turns.drop (i + 1)))).lift (s.arrived i j) (s.ENV.turns.drop (j + 1))

/-- The state PARSE finds, written out: the bytes POLL counted are in the buffer (R71). -/
theorem State.atParse_eq (s : State) (i j : Nat) (hq : 7 ≤ (s.RXQ ++ s.arrived 0 i).length) :
    s.atParse i j =
      { s with
        ST := .cleared
        BUF := Memory.writeBytes s.BUF 0
          ((s.RXQ ++ s.arrived 0 i).take (min (s.RXQ ++ s.arrived 0 i).length Config.BUF_CAP))
        RXQ := (s.RXQ ++ s.arrived 0 i).drop (min (s.RXQ ++ s.arrived 0 i).length Config.BUF_CAP) ++ s.arrived i j
        BUF_LEN := min (s.RXQ ++ s.arrived 0 i).length Config.BUF_CAP
        BUF_VALID := true
        PHASE := .parse
        ENV := { s.ENV with turns := s.ENV.turns.drop (j + 1) } } := by
  rw [State.atParse, poll_enough (s := s.lift (s.arrived 0 i) _) hq]
  rfl

/-- The run up to and with the PARSE of turn `j`. -/
theorem steps_poll_parse {s : State} {i j : Nat} (hu : s.Undisturbed) (hp : s.PHASE = .poll)
    (hi : s.BlockMove 0 i) (hj : s.BlockMove 1 j) (hq : 7 ≤ (s.RXQ ++ s.arrived 0 i).length) :
    steps (j + 1) s = parse (s.atParse i j) := by
  have hpoll := steps_to_poll hu hp hi
  have henough := poll_enough (s := s.lift (s.arrived 0 i) (s.ENV.turns.drop (i + 1))) hq
  generalize hv : poll (s.lift (s.arrived 0 i) (s.ENV.turns.drop (i + 1))) = v at hpoll
  have hvturns : v.ENV.turns = s.ENV.turns.drop (i + 1) := by rw [← hv, henough]; rfl
  have hvphase : v.PHASE = .parse := by rw [← hv, henough]
  obtain ⟨j', rfl, hj'⟩ := hi.split_move (r := 0) hvturns hj
  have harr : v.arrived 0 j' = s.arrived i (i + 1 + j') := by
    rw [s.arrived_append (Nat.le_succ i) (Nat.le_add_right _ _), hi.arrived, s.arrived_drop v (i + 1) j' hvturns,
      List.nil_append]
  rw [Nat.add_assoc, steps_add (i + 1) (j' + 1) hpoll, steps_to_parse (hu.of_drop hvturns) hvphase hj', harr, hvturns,
    List.drop_drop, ← hv]
  rfl

/-- The frame that PARSE finds is the first seven bytes of what POLL counted. -/
theorem State.atParse_frameIs {s : State} {i : Nat} (j : Nat) {b0 b1 b2 b3 b4 b5 b6 : Byte} {more : List Byte}
    (hq : s.RXQ ++ s.arrived 0 i = b0 :: b1 :: b2 :: b3 :: b4 :: b5 :: b6 :: more) :
    FrameIs (s.atParse i j).BUF b0 b1 b2 b3 b4 b5 b6 := by
  have hlen : 7 ≤ (s.RXQ ++ s.arrived 0 i).length := by simp [hq]
  obtain ⟨hmin, -⟩ := poll_count (s := s.lift (s.arrived 0 i) []) hlen
  obtain ⟨c, hc⟩ := Nat.exists_eq_add_of_le hmin
  rw [State.atParse_eq s i j hlen, show min (s.RXQ ++ s.arrived 0 i).length Config.BUF_CAP = 7 + c from hc, hq,
    Nat.add_comm 7 c]
  exact frameIs_writeBytes ..

/-- Settles O24: PARSE of the first seven bytes counted, and then only arrivals. -/
theorem headOfQueueDecidesCommand : Obligations.HeadOfQueueDecidesCommand := by
  intro s b0 b1 b2 b3 b4 b5 b6 more i j n hu hp hrxq hi hj hn
  have hq : s.RXQ ++ s.arrived 0 i = b0 :: b1 :: b2 :: b3 :: b4 :: b5 :: b6 :: (more ++ s.arrived 0 i) := by
    rw [hrxq]; rfl
  have hlen : 7 ≤ (s.RXQ ++ s.arrived 0 i).length := by simp [hq]
  have hv : (s.atParse i j).BUF_VALID = true := by rw [State.atParse_eq s i j hlen]
  have hf := State.atParse_frameIs j hq
  have hrun := steps_poll_parse hu hp hi hj hlen
  obtain ⟨n', rfl, hn'⟩ := hj.split (u := s.atParse i j) (r := 0) rfl hn
  obtain ⟨j', hj', -⟩ := hi.split_move (u := s.lift [] (s.ENV.turns.drop (i + 1))) (r := 0) rfl hj
  have harr : s.arrived j (j + 1 + n') = (s.atParse i j).arrived 0 n' := by
    rw [s.arrived_append (Nat.le_succ j) (Nat.le_add_right _ _), hj.arrived,
      s.arrived_drop (s.atParse i j) (j + 1) n' rfl, List.nil_append]
  have hthen {w : State} (hparse : parse (s.atParse i j) = .next w) (hturns : w.ENV = (s.atParse i j).ENV) :
      steps (j + 1 + n') s = .next (w.lift (s.arrived j (j + 1 + n')) (s.ENV.turns.drop (j + 1 + n'))) := by
    have hw : w.ENV.turns = s.ENV.turns.drop (j + 1) := by rw [hturns]; rfl
    have hmoves : w.blockMoves n' = 0 := by rw [State.blockMoves, hturns]; exact hn'
    rw [steps_add _ n' (hrun.trans hparse), steps_senders (hu.of_drop hw) hmoves, harr, hw, List.drop_drop,
      State.arrived, State.arrived, hturns]
  by_cases hb : b0 = Config.HDR ∧ b6 = Config.FTR
  · refine ⟨_, hthen (parse_of_frame hv hf (exec_decodeFrame_of_envelope hb ..)) rfl, rfl, rfl, ?_, ?_, ?_,
      fun hbad => absurd hb (not_and_or.mpr hbad), fun _ => ⟨?_, rfl, rfl, fun hd => ?_, fun hd => ?_⟩⟩
    · rw [State.atParse_eq s i j hlen]; rfl
    · rw [State.atParse_eq s i j hlen]; rfl
    · cases hd : (digit b1).recognised <;> simp [State.lift, endParse, frameStatus, hd, Status.cycleLabel]
    · rw [State.atParse_eq s i j hlen, s.arrived_append (show i ≤ j by omega) (show j ≤ j + 1 + n' by omega)]
      exact List.append_assoc ..
    · simp [State.lift, endParse, frameCommand, digit_of_recognised hd]
    · simp [State.lift, endParse, frameCommand, digit_of_not_recognised hd]
  · refine ⟨_, hthen (parse_of_frame hv hf (exec_decodeFrame_of_bad hb ..)) rfl, rfl, rfl, ?_, ?_, rfl,
      fun _ => ⟨rfl, rfl⟩, fun hgood => absurd hgood hb⟩
    · rw [State.atParse_eq s i j hlen]; rfl
    · rw [State.atParse_eq s i j hlen]; rfl

/-! ### A whole cycle with a frame -/

/-- The cycle of a frame: PARSE leaves `u` in turn `j`, and six moves on the APPLY has ended in `t`. -/
theorem cycle_of_frame {s : State} {i j n : Nat} (hu : s.Undisturbed) (hp : s.PHASE = .poll) (hi : s.BlockMove 0 i)
    (hlen : 7 ≤ (s.RXQ ++ s.arrived 0 i).length) (hj : s.BlockMove 1 j) (hn : s.blockMoves n = 8) :
    ∃ u t n', n = j + 1 + n' ∧ steps (j + 1) s = .next u ∧ u.OUT = s.OUT ∧
      u.ENV.turns = s.ENV.turns.drop (j + 1) ∧ steps n s = .next t ∧ CycleApplied u n' t := by
  obtain ⟨b0, b1, b2, b3, b4, b5, b6, hf⟩ := exists_frameIs (s.atParse i j).BUF
  obtain ⟨w, hw⟩ := everyInstructionCompletes (decodeFrame b0 b1 b2 b3 b4 b5 b6) (s.atParse i j)
  obtain ⟨-, -, -, -, -, -, hout, -, -, henv, -⟩ := instructionFrame _ _ _ hw
  have hrun : steps (j + 1) s = .next (endParse w) := by
    rw [steps_poll_parse hu hp hi hj hlen]
    exact parse_of_frame (by rw [State.atParse_eq s i j hlen]) hf hw
  have hturns : (endParse w).ENV.turns = s.ENV.turns.drop (j + 1) := by rw [endParse_ENV, henv]; rfl
  obtain ⟨n', rfl, hn'⟩ := hj.split (r := 6) hturns hn
  obtain ⟨t, ht, happlied⟩ := cycleApplied_of_sample (hu.of_drop hturns) (endParse_PHASE w) hn'
  refine ⟨_, t, n', rfl, hrun, ?_, hturns, by rw [steps_add _ n' hrun, ht], happlied⟩
  rw [endParse_OUT, hout, State.atParse_eq s i j hlen]

/-- Settles O53: the APPLY of the cycle writes what its PARSE left. -/
theorem frameReachesEndpointsInItsCycle : Obligations.FrameReachesEndpointsInItsCycle := by
  intro s i j n hu hp hi hlen hj hn
  obtain ⟨u, t, n', rfl, hrun, hout, hturns, ht, happlied⟩ := cycle_of_frame hu hp hi hlen hj hn
  refine ⟨u, t, hrun, ht, happlied.phase, happlied.command, hout ▸ happlied.trace, fun m v hm hv hok => ?_⟩
  obtain ⟨m', rfl, hm'⟩ := hj.split (r := 1) hturns hm
  rw [steps_add _ m' hrun] at hv
  exact happlied.endpoints m' v hm' hv hok

/-- Settles O52: the frame's PARSE leaves `ALL_OFF` and an empty queue, and the cycle goes on from there. -/
theorem malformedFrameTurnsAllOff : Obligations.MalformedFrameTurnsAllOff := by
  intro s b0 b1 b2 b3 b4 b5 b6 more j n hu hp hrxq hbad hj hn
  obtain ⟨i, hi⟩ := hu.exists_blockMove_zero
  have hlen : 7 ≤ (s.RXQ ++ s.arrived 0 i).length := by simp only [hrxq, List.length_append, List.length_cons]; omega
  obtain ⟨u, t, n', rfl, hrun, hout, hturns, ht, happlied⟩ := cycle_of_frame hu hp hi hlen hj hn
  obtain ⟨v, hv, -, -, -, -, -, hoff, -⟩ :=
    headOfQueueDecidesCommand s b0 b1 b2 b3 b4 b5 b6 more i j (j + 1) hu hp hrxq hi hj hj.succ
  rw [hrun] at hv
  cases hv
  obtain ⟨has, hq⟩ := hoff hbad
  refine ⟨t, ht, happlied.phase, happlied.command.trans has, ?_, ?_, fun m w hm hw hok => ?_⟩
  · rw [happlied.queue, hq, s.arrived_append (Nat.le_succ j) (Nat.le_add_right _ _), s.arrived_drop u (j + 1) n' hturns]
  · rw [← hout]
    have htrace := happlied.trace
    rw [has] at htrace
    exact htrace
  · obtain ⟨m', rfl, hm'⟩ := hj.split (r := 1) hturns hm
    rw [steps_add _ m' hrun] at hw
    refine Endpoints.ext_get fun e => ?_
    rw [happlied.endpoints m' w hm' hw hok e, has]
    cases e <;> rfl

/-! ### Silence (R172) -/

/-- With no turn listed every turn is a move, and nothing arrives. -/
theorem State.moves_of_turns_nil {s : State} (h : s.ENV.turns = []) (n : Nat) :
    s.blockMoves n = n ∧ s.arrived 0 n = [] := by
  simp [State.blockMoves, State.arrived, h]

/-- One silent cycle: POLL reads nothing, and the APPLY writes the command that stood (R72, R172). -/
theorem silent_cycle {s : State} (hs : s.ENV.turns = []) (hp : s.PHASE = .poll) (hq : s.RXQ.length < 7) :
    ∃ t, steps 8 s = .next t ∧ t.ENV.turns = [] ∧ t.PHASE = .poll ∧ t.AS = s.AS ∧ t.RXQ = s.RXQ ∧ t.BUF = s.BUF ∧
      ∃ events, t.OUT = s.OUT ++ events ∧
        events.map (fun w => (w.endpoint, w.value)) = writeOrder.map (fun e => (e, s.AS.valueFor e)) := by
  have hpoll := pollShortKeepsEverything s (nextTurn_of_turns_nil hs) hp hq
  rw [onTurn_of_turns_nil hs] at hpoll
  obtain ⟨hmoves, harr⟩ :=
    State.moves_of_turns_nil (s := { s with ST := .cleared, BUF_VALID := false, PHASE := .sample }) hs 6
  obtain ⟨t, ht, happlied⟩ :=
    cycleApplied_of_sample (u := { s with ST := .cleared, BUF_VALID := false, PHASE := .sample })
      (State.undisturbed_of_turns_nil hs) rfl hmoves
  have hquiet : t.ENV.turns = [] := by rw [happlied.turns, hs, List.drop_nil]
  have hsleep := step_sleep (nextTurn_of_turns_nil hquiet) happlied.phase
  rw [onTurn_of_turns_nil hquiet] at hsleep
  refine ⟨sleep t, ?_, hquiet, rfl, happlied.command, ?_, happlied.buffer, happlied.trace⟩
  · rw [steps_succ 7 hpoll, steps_add 6 1 ht, steps_succ 0 hsleep, steps_zero]
  · rw [sleep_RXQ, happlied.queue, harr, List.append_nil]

/-- Settles O54: by induction on the number of cycles. -/
theorem silenceHoldsCommand : Obligations.SilenceHoldsCommand := by
  intro n
  induction n with
  | zero => exact fun s _ hp _ => ⟨s, rfl, hp, rfl, rfl, rfl, [], by simp, rfl⟩
  | succ n ih =>
    intro s hs hp hq
    obtain ⟨u, hu, huturns, huphase, huas, hurxq, hubuf, ev, hev, hevmap⟩ := silent_cycle hs hp hq
    obtain ⟨t, ht, hphase, has, hrxq, hbuf, evs, hevs, hevsmap⟩ := ih u huturns huphase (hurxq ▸ hq)
    refine ⟨t, ?_, hphase, has.trans huas, hrxq.trans hurxq, hbuf.trans hubuf, ev ++ evs, ?_, ?_⟩
    · rw [Nat.mul_succ, Nat.add_comm, steps_add 8 _ hu, ht]
    · rw [hevs, hev, List.append_assoc]
    · rw [List.map_append, hevmap, hevsmap, huas, List.replicate_succ, List.flatten_cons]

/-! ### Sustained malformed input (R90) -/

/-- A run of at least one step that goes on begins with a step that does. -/
theorem step_of_steps_succ {n : Nat} {s t : State} (h : steps (n + 1) s = .next t) :
    ∃ u, step s = .next u ∧ steps n u = .next t := by
  rcases step_next_or_fault s with ⟨u, hu⟩ | ⟨-, -, -, hfault⟩
  · exact ⟨u, hu, by rw [← steps_succ n hu, h]⟩
  · simp only [steps, hfault] at h
    cases h

/-- The command is off, and so is all that has been written since `s`. -/
def OffSince (s t : State) : Prop :=
  t.AS = ALL_OFF ∧ ∃ events, t.OUT = s.OUT ++ events ∧ ∀ w ∈ events, w.value = ALL_OFF.valueFor w.endpoint

/-- From `ALL_OFF` a step keeps everything off, if it is no PARSE of a good envelope. -/
theorem step_keeps_off {s t : State} (has : s.AS = ALL_OFF) (h : step s = .next t)
    (hbad : s.PHASE = .parse → ∀ b0 b1 b2 b3 b4 b5 b6, FrameIs s.BUF b0 b1 b2 b3 b4 b5 b6 →
      b0 ≠ 0x26#8 ∨ b6 ≠ 0x40#8) : OffSince s t := by
  obtain ⟨hcommand, houtputs, -⟩ := eachOperationWritesItsOwn s t h
  by_cases hparse : s.nextTurn = .block ∧ s.PHASE = .parse
  · obtain ⟨ht, hp⟩ := hparse
    rw [step_parse ht hp] at h
    obtain ⟨_, _, _, _, _, _, _, u, -, hf, he, rfl⟩ := parse_cases h
    rw [exec_decodeFrame_of_bad (not_and_or.mpr (hbad hp _ _ _ _ _ _ _ hf))] at he
    cases he
    exact ⟨rfl, [], by simp [raiseError_framing], by simp⟩
  · have hkeep : t.AS = ALL_OFF := (not_not.mp (mt hcommand hparse)).trans has
    by_cases happly : s.nextTurn = .block ∧ s.PHASE = .apply
    · obtain ⟨ht, hp⟩ := happly
      rw [step_apply ht hp] at h
      cases h
      refine ⟨hkeep, [⟨s.WRITE_POS, s.AS.valueFor s.WRITE_POS, s.writeResult 0⟩], by rw [applyWrite_eq]; rfl, ?_⟩
      simp [has]
    · exact ⟨hkeep, [], by simpa using not_not.mp (not_or.mp (mt houtputs happly)).2, by simp⟩

/-- Settles O55: by induction on the number of steps. -/
theorem malformedInputStaysOff : Obligations.MalformedInputStaysOff := by
  intro n
  induction n with
  | zero => exact fun s t has _ h => by cases h; exact ⟨has, [], by simp, by simp⟩
  | succ n ih =>
    intro s t has hbad h
    obtain ⟨u, hu, hrun⟩ := step_of_steps_succ h
    obtain ⟨huas, ev, hev, hevoff⟩ := step_keeps_off has hu fun hp b0 b1 b2 b3 b4 b5 b6 hf =>
      hbad 0 s b0 b1 b2 b3 b4 b5 b6 (Nat.succ_pos n) rfl hp hf
    obtain ⟨htas, evs, hevs, hevsoff⟩ := ih u t huas (fun k v b0 b1 b2 b3 b4 b5 b6 hk hv hp hf =>
      hbad (k + 1) v b0 b1 b2 b3 b4 b5 b6 (Nat.succ_lt_succ hk) (by rw [steps_succ k hu, hv]) hp hf) hrun
    refine ⟨htas, ev ++ evs, by rw [hevs, hev, List.append_assoc], fun w hw => ?_⟩
    exact (List.mem_append.mp hw).elim (hevoff w) (hevsoff w)

/-! ### The loop goes on (R176) -/

/-- How many moves of the block lead from a phase to the next `P_POLL`, at most. -/
def State.movesToPoll (s : State) : Nat :=
  match s.PHASE with
  | .init => 1
  | .poll => 9
  | .parse => 8
  | .sample => 7
  | .apply => 6 - s.WRITE_POS.index
  | .sleep => 1
  | .halt => 0

/-- No phase but `P_HALT` is without a move to make, and none is more than nine away. -/
theorem State.movesToPoll_range {s : State} (hp : s.PHASE ≠ .halt) : 1 ≤ s.movesToPoll ∧ s.movesToPoll ≤ 9 := by
  have hlt := s.WRITE_POS.index_lt
  unfold State.movesToPoll
  split
  case h_7 hh => exact absurd hh hp
  all_goals omega

/-- Every move takes its turn. -/
theorem step_turns {s t : State} (h : step s = .next t) : t.ENV.turns = s.ENV.turns.tail := by
  cases move_of_step h <;> simp [raiseError_framing]

/-- A move of a running block reaches `P_POLL`, or fails to start, or brings `P_POLL` nearer. -/
theorem block_move_progress {s t : State} (ht : s.nextTurn = .block) (hp : s.PHASE ≠ .halt) (h : step s = .next t) :
    (t.PHASE = .poll ∨ (s.PHASE = .init ∧ t.PHASE = .halt ∧ t.EXIT ≠ none)) ∨
      (t.PHASE ≠ .halt ∧ t.PHASE ≠ .init ∧ t.movesToPoll < s.movesToPoll) := by
  cases move_of_step h with
  | arrival bytes turn => rw [ht] at turn; cases turn
  | terminated turn => rw [ht] at turn; rcases turn with turn | turn <;> cases turn
  | terminatedInPoll turn phase => rw [ht] at turn; cases turn
  | terminatedInBadframe turn phase bad => rw [ht] at turn; cases turn
  | started turn phase => exact .inl (.inl rfl)
  | startFailed turn phase => exact .inl (.inr ⟨phase, rfl, nofun⟩)
  | polled turn phase enough => exact .inr ⟨nofun, nofun, by simp [State.movesToPoll, phase]⟩
  | polledShort turn phase => exact .inr ⟨nofun, nofun, by simp [State.movesToPoll, phase]⟩
  | accepted turn phase frame => exact .inr ⟨nofun, nofun, by simp [State.movesToPoll, phase]⟩
  | rejected turn phase bad => exact .inr ⟨nofun, nofun, by simp [State.movesToPoll, phase]⟩
  | sampled turn phase tlm => exact .inr ⟨nofun, nofun, by simp [State.movesToPoll, phase, Endpoint.index]⟩
  | wrote turn phase =>
    cases hw : s.WRITE_POS <;> simp [State.movesToPoll, phase, hw, Endpoint.next, Endpoint.index]
  | slept turn phase => exact .inl (.inl rfl)
  | halted turn phase => exact absurd phase hp

/-- The loop comes back to `P_POLL` within the moves of the measure. -/
theorem returns_to_poll (b : Nat) {s : State} (hb : s.movesToPoll ≤ b) (hs : BufferReady s) (hp : s.PHASE ≠ .halt)
    (hu : s.Undisturbed) :
    ∃ n t, 1 ≤ s.blockMoves n ∧ s.blockMoves n ≤ b ∧ steps n s = .next t ∧
      (t.PHASE = .poll ∨ (s.PHASE = .init ∧ t.PHASE = .halt ∧ t.EXIT ≠ none)) := by
  induction b generalizing s with
  | zero => exact absurd (State.movesToPoll_range hp).1 (by omega)
  | succ b ih =>
    obtain ⟨i, hi⟩ := hu.exists_blockMove_zero
    obtain ⟨ht, hrun⟩ := steps_to_move hu hi
    have hready := steps_keep bufferReadyIsKept hs (steps_senders hu hi.2)
    obtain ⟨t, hstep⟩ := machineNeverStops _ hready
    rw [hstep] at hrun
    have hturns : t.ENV.turns = s.ENV.turns.drop (i + 1) := by
      rw [step_turns hstep]
      exact List.tail_drop
    rcases block_move_progress ht hp hstep with hdone | ⟨hhalt, hinit, hlt⟩
    · exact ⟨i + 1, t, by rw [hi.succ], by rw [hi.succ]; omega, hrun, hdone⟩
    · have hlt' : t.movesToPoll < s.movesToPoll := hlt
      obtain ⟨n, v, h1, h2, hv, hend⟩ := ih (by omega) (bufferReadyIsKept _ _ hready hstep) hhalt (hu.of_drop hturns)
      have hmoves := s.blockMoves_add t (i + 1) n hturns
      rw [hi.succ] at hmoves
      refine ⟨i + 1 + n, v, by omega, by omega, by rw [steps_add _ n hrun, hv], .inl ?_⟩
      exact hend.resolve_right fun h => hinit h.1

/-- Settles O51: the measure is nine at most. -/
theorem loopReturnsToPoll : Obligations.LoopReturnsToPoll := fun _ hs hp hu =>
  returns_to_poll 9 (State.movesToPoll_range hp).2 hs hp hu

end Sys2Proof.Machine
end
